-- ==== Sys2Proof/Word.lean ====
section
/-! DEFINITION. The plain data of the varint codec core: bytes, values, widths, types, byte lanes and the
request that carries a command word with its operand fields (spec files 00 and 30). -/

namespace Sys2Proof

/-- One byte of a slice, a source, a sink or a command word. -/
abbrev Byte := BitVec 8

/-- The value bus VAL_BUS, 64 bits (R6): `val` of a request, `rval` of a response. -/
abbrev Val := BitVec 64

/-- DEC.acc, ACC_WIDTH = 128 bits (R6, R13). -/
abbrev Acc := BitVec 128

/-- DEC.count and `rlen`, 4 bits (R14, R47). -/
abbrev Count := BitVec 4

/-- The four widths (R6). -/
inductive Width where
  | w8 | w16 | w32 | w64
deriving DecidableEq, Repr

/-- W in bits, 8 << WC (R45). -/
def Width.bits : Width → Nat
  | .w8 => 8
  | .w16 => 16
  | .w32 => 32
  | .w64 => 64

/-- A type T, a pair (W, signedness) (R4). -/
structure VType where
  width : Width
  signed : Bool
deriving DecidableEq, Repr

namespace VType

abbrev u8 : VType := ⟨.w8, false⟩
abbrev u16 : VType := ⟨.w16, false⟩
abbrev u32 : VType := ⟨.w32, false⟩
abbrev u64 : VType := ⟨.w64, false⟩
abbrev i8 : VType := ⟨.w8, true⟩
abbrev i16 : VType := ⟨.w16, true⟩
abbrev i32 : VType := ⟨.w32, true⟩
abbrev i64 : VType := ⟨.w64, true⟩

/-- W of T in bits (R4). -/
abbrev bits (T : VType) : Nat := T.width.bits

end VType

/-- Ten byte lanes, SLICE_LANES = ENC_LANES = 10 (R6): `sb[0..9]` and `rbytes[0..9]`. -/
structure Lanes where
  l0 : Byte
  l1 : Byte
  l2 : Byte
  l3 : Byte
  l4 : Byte
  l5 : Byte
  l6 : Byte
  l7 : Byte
  l8 : Byte
  l9 : Byte
deriving DecidableEq, Repr

namespace Lanes

/-- All lanes 0. -/
def zero : Lanes := ⟨0, 0, 0, 0, 0, 0, 0, 0, 0, 0⟩

/-- The lanes in order, lane 0 first. -/
def toList (x : Lanes) : List Byte := [x.l0, x.l1, x.l2, x.l3, x.l4, x.l5, x.l6, x.l7, x.l8, x.l9]

/-- The first ten bytes of a sequence on the lanes, the other lanes 0 (R47, R52). -/
def ofList (s : List Byte) : Lanes :=
  ⟨s.getD 0 0, s.getD 1 0, s.getD 2 0, s.getD 3 0, s.getD 4 0,
   s.getD 5 0, s.getD 6 0, s.getD 7 0, s.getD 8 0, s.getD 9 0⟩

end Lanes

/-- One request: the 8-bit command word (R44) with all operand fields (R46). -/
structure Request where
  cmd : Byte
  val : Val
  sb : Lanes
  slen : BitVec 4
  b : Byte
deriving DecidableEq, Repr

/-- A request with the given command word and every operand field 0. -/
def Request.ofCmd (cmd : Byte) : Request := ⟨cmd, 0, Lanes.zero, 0, 0⟩

end Sys2Proof
end

