-- ==== Sys2Proof/Syntax.lean ====
section
/-! DEFINITION. The commands: one constructor for each of the 67 legal command words of spec/opcode_table.json
(R49), with the operand fields the command's rule names (R46). -/

namespace Sys2Proof

/-- A legal command with its operands. -/
inductive Instr where
  -- zzenc: zigzag encoder, signed W to unsigned W (R55)
  | zzencI8 (val : Val)
  | zzencI16 (val : Val)
  | zzencI32 (val : Val)
  | zzencI64 (val : Val)
  -- zzdec: zigzag decoder, unsigned W to signed W (R56)
  | zzdecI8 (val : Val)
  | zzdecI16 (val : Val)
  | zzdecI32 (val : Val)
  | zzdecI64 (val : Val)
  -- vmaxsz: maximum encoded size of T (R59)
  | vmaxszU8
  | vmaxszU16
  | vmaxszU32
  | vmaxszU64
  | vmaxszI8
  | vmaxszI16
  | vmaxszI32
  | vmaxszI64
  -- vrspace: required space of one value (R60)
  | vrspaceU8 (val : Val)
  | vrspaceU16 (val : Val)
  | vrspaceU32 (val : Val)
  | vrspaceU64 (val : Val)
  | vrspaceI8 (val : Val)
  | vrspaceI16 (val : Val)
  | vrspaceI32 (val : Val)
  | vrspaceI64 (val : Val)
  -- venc: integer to bytes (R61)
  | vencU8 (val : Val)
  | vencU16 (val : Val)
  | vencU32 (val : Val)
  | vencU64 (val : Val)
  | vencI8 (val : Val)
  | vencI16 (val : Val)
  | vencI32 (val : Val)
  | vencI64 (val : Val)
  -- vdec: slice to integer (R62)
  | vdecU8 (sb : Lanes) (slen : BitVec 4)
  | vdecU16 (sb : Lanes) (slen : BitVec 4)
  | vdecU32 (sb : Lanes) (slen : BitVec 4)
  | vdecU64 (sb : Lanes) (slen : BitVec 4)
  | vdecI8 (sb : Lanes) (slen : BitVec 4)
  | vdecI16 (sb : Lanes) (slen : BitVec 4)
  | vdecI32 (sb : Lanes) (slen : BitVec 4)
  | vdecI64 (sb : Lanes) (slen : BitVec 4)
  -- dinit: start a decode of type T in DEC (R70)
  | dinitU8
  | dinitU16
  | dinitU32
  | dinitU64
  | dinitI8
  | dinitI16
  | dinitI32
  | dinitI64
  -- dstep: one byte to DEC (R71)
  | dstep (b : Byte)
  -- deof: end-of-input to DEC (R72)
  | deof
  -- wrvar: write one varint to the sink (R75)
  | wrvarU8 (val : Val)
  | wrvarU16 (val : Val)
  | wrvarU32 (val : Val)
  | wrvarU64 (val : Val)
  | wrvarI8 (val : Val)
  | wrvarI16 (val : Val)
  | wrvarI32 (val : Val)
  | wrvarI64 (val : Val)
  -- rdvar: read one varint from the source (R78)
  | rdvarU8
  | rdvarU16
  | rdvarU32
  | rdvarU64
  | rdvarI8
  | rdvarI16
  | rdvarI32
  | rdvarI64
  -- abort: cancel the adapter operation in flight (R81)
  | abort
deriving DecidableEq, Repr

end Sys2Proof
end

