-- ==== Sys2Proof/WellFormed.lean ====
section
/-! DEFINITION. Well-formed commands: those whose operand fields are as R52 places them. The hardware runs the
others too (R46 ignores val[63:W]; slen 10..15 acts as 10), so nothing in the machine depends on this check; it is what
the assembler of R52 emits (log entry 19). -/

namespace Sys2Proof

/-- `val` is the zext_64 of its own low W bits (R52, unsigned operand). -/
def canonicalUnsigned (w : Width) (val : Val) : Bool := (val.setWidth w.bits).setWidth 64 == val

/-- `val` is the sext_64 of its own low W bits (R52, signed operand). -/
def canonicalSigned (w : Width) (val : Val) : Bool := (val.setWidth w.bits).signExtend 64 == val

/-- `val` is extended as the operand of a command of type T (R52). -/
def canonicalVal (T : VType) (val : Val) : Bool :=
  if T.signed then canonicalSigned T.width val else canonicalUnsigned T.width val

/-- `slen` counts at most the ten lanes, and the lanes at `slen` and above are 0 (R52). -/
def canonicalSlice (sb : Lanes) (slen : BitVec 4) : Bool :=
  decide (slen.toNat ≤ 10) && (sb.toList.drop slen.toNat).all (· == 0)

/-- The operand fields are as the assembler of R52 places them. -/
def Instr.wf : Instr → Bool
  | .zzencI8 val => canonicalSigned .w8 val
  | .zzencI16 val => canonicalSigned .w16 val
  | .zzencI32 val => canonicalSigned .w32 val
  | .zzencI64 val => canonicalSigned .w64 val
  | .zzdecI8 val => canonicalUnsigned .w8 val
  | .zzdecI16 val => canonicalUnsigned .w16 val
  | .zzdecI32 val => canonicalUnsigned .w32 val
  | .zzdecI64 val => canonicalUnsigned .w64 val
  | .vmaxszU8 => true
  | .vmaxszU16 => true
  | .vmaxszU32 => true
  | .vmaxszU64 => true
  | .vmaxszI8 => true
  | .vmaxszI16 => true
  | .vmaxszI32 => true
  | .vmaxszI64 => true
  | .vrspaceU8 val => canonicalVal .u8 val
  | .vrspaceU16 val => canonicalVal .u16 val
  | .vrspaceU32 val => canonicalVal .u32 val
  | .vrspaceU64 val => canonicalVal .u64 val
  | .vrspaceI8 val => canonicalVal .i8 val
  | .vrspaceI16 val => canonicalVal .i16 val
  | .vrspaceI32 val => canonicalVal .i32 val
  | .vrspaceI64 val => canonicalVal .i64 val
  | .vencU8 val => canonicalVal .u8 val
  | .vencU16 val => canonicalVal .u16 val
  | .vencU32 val => canonicalVal .u32 val
  | .vencU64 val => canonicalVal .u64 val
  | .vencI8 val => canonicalVal .i8 val
  | .vencI16 val => canonicalVal .i16 val
  | .vencI32 val => canonicalVal .i32 val
  | .vencI64 val => canonicalVal .i64 val
  | .vdecU8 sb slen => canonicalSlice sb slen
  | .vdecU16 sb slen => canonicalSlice sb slen
  | .vdecU32 sb slen => canonicalSlice sb slen
  | .vdecU64 sb slen => canonicalSlice sb slen
  | .vdecI8 sb slen => canonicalSlice sb slen
  | .vdecI16 sb slen => canonicalSlice sb slen
  | .vdecI32 sb slen => canonicalSlice sb slen
  | .vdecI64 sb slen => canonicalSlice sb slen
  | .dinitU8 => true
  | .dinitU16 => true
  | .dinitU32 => true
  | .dinitU64 => true
  | .dinitI8 => true
  | .dinitI16 => true
  | .dinitI32 => true
  | .dinitI64 => true
  | .dstep _ => true
  | .deof => true
  | .wrvarU8 val => canonicalVal .u8 val
  | .wrvarU16 val => canonicalVal .u16 val
  | .wrvarU32 val => canonicalVal .u32 val
  | .wrvarU64 val => canonicalVal .u64 val
  | .wrvarI8 val => canonicalVal .i8 val
  | .wrvarI16 val => canonicalVal .i16 val
  | .wrvarI32 val => canonicalVal .i32 val
  | .wrvarI64 val => canonicalVal .i64 val
  | .rdvarU8 => true
  | .rdvarU16 => true
  | .rdvarU32 => true
  | .rdvarU64 => true
  | .rdvarI8 => true
  | .rdvarI16 => true
  | .rdvarI32 => true
  | .rdvarI64 => true
  | .abort => true

end Sys2Proof
end

