-- ==== Sys2Proof/Decode.lean ====
section
/-! DEFINITION. The command decoder, total on the 256 command words, with a named reason for each illegal one (R44,
R45, R49, R50), and the encoder written from the map of R49. -/

namespace Sys2Proof

/-- Why a command word is illegal, the four lines of R50. -/
inductive IllegalWord where
  /-- cmd[3] = 1 -/
  | reservedBit
  /-- OP 0xC to 0xF -/
  | reservedOp
  /-- OP 0x0 or 0x1 with S = 0 -/
  | zigzagUnsigned
  /-- OP 0x7, 0x8 or 0xB with cmd[2:0] not 0b000 -/
  | typeFieldNotZero
deriving DecidableEq, Repr

/-- What the decoder reads from a request. -/
inductive Decoded where
  | instr (i : Instr)
  | illegal (why : IllegalWord)
deriving DecidableEq, Repr

/-- The instruction read, if the word is legal. -/
def Decoded.toOption : Decoded → Option Instr
  | .instr i => some i
  | .illegal _ => none

/-- A word that is legal only under a condition on its type field (R50). -/
def Decoded.legalIf (ok : Bool) (why : IllegalWord) (i : Instr) : Decoded :=
  bif ok then .instr i else .illegal why

/-- cmd[7:4], the operation (R44). -/
def cmdOp (cmd : Byte) : Nat := (cmd.extractLsb' 4 4).toNat

/-- WC = cmd[1:0] (R44, R45). -/
def cmdWidth (cmd : Byte) : Width :=
  match (cmd.extractLsb' 0 2).toNat with
  | 0 => .w8
  | 1 => .w16
  | 2 => .w32
  | _ => .w64

/-- The type field, S = cmd[2] and WC = cmd[1:0] (R45). -/
def cmdType (cmd : Byte) : VType := ⟨cmdWidth cmd, cmd.getLsbD 2⟩

/-- cmd[2:0] = 0b000, as OP 0x7, 0x8 and 0xB need it (R49). -/
def cmdNoType (cmd : Byte) : Bool := cmd.extractLsb' 0 3 == 0

/-! The command of one operation at each of its types (the rows of R49). -/

/-- zzenc.iW for each W (R49). -/
def Instr.zzenc (w : Width) (val : Val) : Instr :=
  match w with
  | .w8 => .zzencI8 val
  | .w16 => .zzencI16 val
  | .w32 => .zzencI32 val
  | .w64 => .zzencI64 val

/-- zzdec.iW for each W (R49). -/
def Instr.zzdec (w : Width) (val : Val) : Instr :=
  match w with
  | .w8 => .zzdecI8 val
  | .w16 => .zzdecI16 val
  | .w32 => .zzdecI32 val
  | .w64 => .zzdecI64 val

/-- vmaxsz.T for each T (R49). -/
def Instr.vmaxsz (T : VType) : Instr :=
  match T with
  | ⟨.w8, false⟩ => .vmaxszU8
  | ⟨.w16, false⟩ => .vmaxszU16
  | ⟨.w32, false⟩ => .vmaxszU32
  | ⟨.w64, false⟩ => .vmaxszU64
  | ⟨.w8, true⟩ => .vmaxszI8
  | ⟨.w16, true⟩ => .vmaxszI16
  | ⟨.w32, true⟩ => .vmaxszI32
  | ⟨.w64, true⟩ => .vmaxszI64

/-- vrspace.T for each T (R49). -/
def Instr.vrspace (T : VType) (val : Val) : Instr :=
  match T with
  | ⟨.w8, false⟩ => .vrspaceU8 val
  | ⟨.w16, false⟩ => .vrspaceU16 val
  | ⟨.w32, false⟩ => .vrspaceU32 val
  | ⟨.w64, false⟩ => .vrspaceU64 val
  | ⟨.w8, true⟩ => .vrspaceI8 val
  | ⟨.w16, true⟩ => .vrspaceI16 val
  | ⟨.w32, true⟩ => .vrspaceI32 val
  | ⟨.w64, true⟩ => .vrspaceI64 val

/-- venc.T for each T (R49). -/
def Instr.venc (T : VType) (val : Val) : Instr :=
  match T with
  | ⟨.w8, false⟩ => .vencU8 val
  | ⟨.w16, false⟩ => .vencU16 val
  | ⟨.w32, false⟩ => .vencU32 val
  | ⟨.w64, false⟩ => .vencU64 val
  | ⟨.w8, true⟩ => .vencI8 val
  | ⟨.w16, true⟩ => .vencI16 val
  | ⟨.w32, true⟩ => .vencI32 val
  | ⟨.w64, true⟩ => .vencI64 val

/-- vdec.T for each T (R49). -/
def Instr.vdec (T : VType) (sb : Lanes) (slen : BitVec 4) : Instr :=
  match T with
  | ⟨.w8, false⟩ => .vdecU8 sb slen
  | ⟨.w16, false⟩ => .vdecU16 sb slen
  | ⟨.w32, false⟩ => .vdecU32 sb slen
  | ⟨.w64, false⟩ => .vdecU64 sb slen
  | ⟨.w8, true⟩ => .vdecI8 sb slen
  | ⟨.w16, true⟩ => .vdecI16 sb slen
  | ⟨.w32, true⟩ => .vdecI32 sb slen
  | ⟨.w64, true⟩ => .vdecI64 sb slen

/-- dinit.T for each T (R49). -/
def Instr.dinit (T : VType) : Instr :=
  match T with
  | ⟨.w8, false⟩ => .dinitU8
  | ⟨.w16, false⟩ => .dinitU16
  | ⟨.w32, false⟩ => .dinitU32
  | ⟨.w64, false⟩ => .dinitU64
  | ⟨.w8, true⟩ => .dinitI8
  | ⟨.w16, true⟩ => .dinitI16
  | ⟨.w32, true⟩ => .dinitI32
  | ⟨.w64, true⟩ => .dinitI64

/-- wrvar.T for each T (R49). -/
def Instr.wrvar (T : VType) (val : Val) : Instr :=
  match T with
  | ⟨.w8, false⟩ => .wrvarU8 val
  | ⟨.w16, false⟩ => .wrvarU16 val
  | ⟨.w32, false⟩ => .wrvarU32 val
  | ⟨.w64, false⟩ => .wrvarU64 val
  | ⟨.w8, true⟩ => .wrvarI8 val
  | ⟨.w16, true⟩ => .wrvarI16 val
  | ⟨.w32, true⟩ => .wrvarI32 val
  | ⟨.w64, true⟩ => .wrvarI64 val

/-- rdvar.T for each T (R49). -/
def Instr.rdvar (T : VType) : Instr :=
  match T with
  | ⟨.w8, false⟩ => .rdvarU8
  | ⟨.w16, false⟩ => .rdvarU16
  | ⟨.w32, false⟩ => .rdvarU32
  | ⟨.w64, false⟩ => .rdvarU64
  | ⟨.w8, true⟩ => .rdvarI8
  | ⟨.w16, true⟩ => .rdvarI16
  | ⟨.w32, true⟩ => .rdvarI32
  | ⟨.w64, true⟩ => .rdvarI64

/-- The decoder (R44 to R50). It passes on the operand fields the command names and no other (R46). -/
def decode (r : Request) : Decoded :=
  bif r.cmd.getLsbD 3 then .illegal .reservedBit
  else
    match cmdOp r.cmd with
    | 0x0 => .legalIf (r.cmd.getLsbD 2) .zigzagUnsigned (.zzenc (cmdWidth r.cmd) r.val)
    | 0x1 => .legalIf (r.cmd.getLsbD 2) .zigzagUnsigned (.zzdec (cmdWidth r.cmd) r.val)
    | 0x2 => .instr (.vmaxsz (cmdType r.cmd))
    | 0x3 => .instr (.vrspace (cmdType r.cmd) r.val)
    | 0x4 => .instr (.venc (cmdType r.cmd) r.val)
    | 0x5 => .instr (.vdec (cmdType r.cmd) r.sb r.slen)
    | 0x6 => .instr (.dinit (cmdType r.cmd))
    | 0x7 => .legalIf (cmdNoType r.cmd) .typeFieldNotZero (.dstep r.b)
    | 0x8 => .legalIf (cmdNoType r.cmd) .typeFieldNotZero .deof
    | 0x9 => .instr (.wrvar (cmdType r.cmd) r.val)
    | 0xA => .instr (.rdvar (cmdType r.cmd))
    | 0xB => .legalIf (cmdNoType r.cmd) .typeFieldNotZero .abort
    | _ => .illegal .reservedOp

/-- The request with an instruction word of the opcode table: the word is the command word, and the operand fields,
which the table gives no bits, are 0 (log entry 18). -/
def requestOfWord (w : Nat) : Request := .ofCmd (BitVec.ofNat 8 w)

/-- The instruction the decoder reads from a word of `nbits` bits numbered as spec/opcode_table.json numbers them.
Every command word is 8 bits long (R44); another length is no command word. -/
def decodeTableWord (nbits w : Nat) : Option Instr :=
  if nbits = 8 ∧ w < 256 then (decode (requestOfWord w)).toOption else none

/-- The command word of an instruction, the map of R49 row by row. -/
def Instr.cmd : Instr → Byte
  | .zzencI8 _ => 0x04
  | .zzencI16 _ => 0x05
  | .zzencI32 _ => 0x06
  | .zzencI64 _ => 0x07
  | .zzdecI8 _ => 0x14
  | .zzdecI16 _ => 0x15
  | .zzdecI32 _ => 0x16
  | .zzdecI64 _ => 0x17
  | .vmaxszU8 => 0x20
  | .vmaxszU16 => 0x21
  | .vmaxszU32 => 0x22
  | .vmaxszU64 => 0x23
  | .vmaxszI8 => 0x24
  | .vmaxszI16 => 0x25
  | .vmaxszI32 => 0x26
  | .vmaxszI64 => 0x27
  | .vrspaceU8 _ => 0x30
  | .vrspaceU16 _ => 0x31
  | .vrspaceU32 _ => 0x32
  | .vrspaceU64 _ => 0x33
  | .vrspaceI8 _ => 0x34
  | .vrspaceI16 _ => 0x35
  | .vrspaceI32 _ => 0x36
  | .vrspaceI64 _ => 0x37
  | .vencU8 _ => 0x40
  | .vencU16 _ => 0x41
  | .vencU32 _ => 0x42
  | .vencU64 _ => 0x43
  | .vencI8 _ => 0x44
  | .vencI16 _ => 0x45
  | .vencI32 _ => 0x46
  | .vencI64 _ => 0x47
  | .vdecU8 _ _ => 0x50
  | .vdecU16 _ _ => 0x51
  | .vdecU32 _ _ => 0x52
  | .vdecU64 _ _ => 0x53
  | .vdecI8 _ _ => 0x54
  | .vdecI16 _ _ => 0x55
  | .vdecI32 _ _ => 0x56
  | .vdecI64 _ _ => 0x57
  | .dinitU8 => 0x60
  | .dinitU16 => 0x61
  | .dinitU32 => 0x62
  | .dinitU64 => 0x63
  | .dinitI8 => 0x64
  | .dinitI16 => 0x65
  | .dinitI32 => 0x66
  | .dinitI64 => 0x67
  | .dstep _ => 0x70
  | .deof => 0x80
  | .wrvarU8 _ => 0x90
  | .wrvarU16 _ => 0x91
  | .wrvarU32 _ => 0x92
  | .wrvarU64 _ => 0x93
  | .wrvarI8 _ => 0x94
  | .wrvarI16 _ => 0x95
  | .wrvarI32 _ => 0x96
  | .wrvarI64 _ => 0x97
  | .rdvarU8 => 0xA0
  | .rdvarU16 => 0xA1
  | .rdvarU32 => 0xA2
  | .rdvarU64 => 0xA3
  | .rdvarI8 => 0xA4
  | .rdvarI16 => 0xA5
  | .rdvarI32 => 0xA6
  | .rdvarI64 => 0xA7
  | .abort => 0xB0

/-- The request that carries an instruction: its word of R49 and the operand fields it names; the others are 0. -/
def encode (i : Instr) : Request :=
  match i with
  | .zzencI8 val => ⟨i.cmd, val, Lanes.zero, 0, 0⟩
  | .zzencI16 val => ⟨i.cmd, val, Lanes.zero, 0, 0⟩
  | .zzencI32 val => ⟨i.cmd, val, Lanes.zero, 0, 0⟩
  | .zzencI64 val => ⟨i.cmd, val, Lanes.zero, 0, 0⟩
  | .zzdecI8 val => ⟨i.cmd, val, Lanes.zero, 0, 0⟩
  | .zzdecI16 val => ⟨i.cmd, val, Lanes.zero, 0, 0⟩
  | .zzdecI32 val => ⟨i.cmd, val, Lanes.zero, 0, 0⟩
  | .zzdecI64 val => ⟨i.cmd, val, Lanes.zero, 0, 0⟩
  | .vmaxszU8 => .ofCmd i.cmd
  | .vmaxszU16 => .ofCmd i.cmd
  | .vmaxszU32 => .ofCmd i.cmd
  | .vmaxszU64 => .ofCmd i.cmd
  | .vmaxszI8 => .ofCmd i.cmd
  | .vmaxszI16 => .ofCmd i.cmd
  | .vmaxszI32 => .ofCmd i.cmd
  | .vmaxszI64 => .ofCmd i.cmd
  | .vrspaceU8 val => ⟨i.cmd, val, Lanes.zero, 0, 0⟩
  | .vrspaceU16 val => ⟨i.cmd, val, Lanes.zero, 0, 0⟩
  | .vrspaceU32 val => ⟨i.cmd, val, Lanes.zero, 0, 0⟩
  | .vrspaceU64 val => ⟨i.cmd, val, Lanes.zero, 0, 0⟩
  | .vrspaceI8 val => ⟨i.cmd, val, Lanes.zero, 0, 0⟩
  | .vrspaceI16 val => ⟨i.cmd, val, Lanes.zero, 0, 0⟩
  | .vrspaceI32 val => ⟨i.cmd, val, Lanes.zero, 0, 0⟩
  | .vrspaceI64 val => ⟨i.cmd, val, Lanes.zero, 0, 0⟩
  | .vencU8 val => ⟨i.cmd, val, Lanes.zero, 0, 0⟩
  | .vencU16 val => ⟨i.cmd, val, Lanes.zero, 0, 0⟩
  | .vencU32 val => ⟨i.cmd, val, Lanes.zero, 0, 0⟩
  | .vencU64 val => ⟨i.cmd, val, Lanes.zero, 0, 0⟩
  | .vencI8 val => ⟨i.cmd, val, Lanes.zero, 0, 0⟩
  | .vencI16 val => ⟨i.cmd, val, Lanes.zero, 0, 0⟩
  | .vencI32 val => ⟨i.cmd, val, Lanes.zero, 0, 0⟩
  | .vencI64 val => ⟨i.cmd, val, Lanes.zero, 0, 0⟩
  | .vdecU8 sb slen => ⟨i.cmd, 0, sb, slen, 0⟩
  | .vdecU16 sb slen => ⟨i.cmd, 0, sb, slen, 0⟩
  | .vdecU32 sb slen => ⟨i.cmd, 0, sb, slen, 0⟩
  | .vdecU64 sb slen => ⟨i.cmd, 0, sb, slen, 0⟩
  | .vdecI8 sb slen => ⟨i.cmd, 0, sb, slen, 0⟩
  | .vdecI16 sb slen => ⟨i.cmd, 0, sb, slen, 0⟩
  | .vdecI32 sb slen => ⟨i.cmd, 0, sb, slen, 0⟩
  | .vdecI64 sb slen => ⟨i.cmd, 0, sb, slen, 0⟩
  | .dinitU8 => .ofCmd i.cmd
  | .dinitU16 => .ofCmd i.cmd
  | .dinitU32 => .ofCmd i.cmd
  | .dinitU64 => .ofCmd i.cmd
  | .dinitI8 => .ofCmd i.cmd
  | .dinitI16 => .ofCmd i.cmd
  | .dinitI32 => .ofCmd i.cmd
  | .dinitI64 => .ofCmd i.cmd
  | .dstep b => ⟨i.cmd, 0, Lanes.zero, 0, b⟩
  | .deof => .ofCmd i.cmd
  | .wrvarU8 val => ⟨i.cmd, val, Lanes.zero, 0, 0⟩
  | .wrvarU16 val => ⟨i.cmd, val, Lanes.zero, 0, 0⟩
  | .wrvarU32 val => ⟨i.cmd, val, Lanes.zero, 0, 0⟩
  | .wrvarU64 val => ⟨i.cmd, val, Lanes.zero, 0, 0⟩
  | .wrvarI8 val => ⟨i.cmd, val, Lanes.zero, 0, 0⟩
  | .wrvarI16 val => ⟨i.cmd, val, Lanes.zero, 0, 0⟩
  | .wrvarI32 val => ⟨i.cmd, val, Lanes.zero, 0, 0⟩
  | .wrvarI64 val => ⟨i.cmd, val, Lanes.zero, 0, 0⟩
  | .rdvarU8 => .ofCmd i.cmd
  | .rdvarU16 => .ofCmd i.cmd
  | .rdvarU32 => .ofCmd i.cmd
  | .rdvarU64 => .ofCmd i.cmd
  | .rdvarI8 => .ofCmd i.cmd
  | .rdvarI16 => .ofCmd i.cmd
  | .rdvarI32 => .ofCmd i.cmd
  | .rdvarI64 => .ofCmd i.cmd
  | .abort => .ofCmd i.cmd

end Sys2Proof
end

