-- ==== Sys2Proof/Config.lean ====
section
/-! DEFINITION. What the spec leaves to a parameter of the model, and the free values (R6, section 92). -/

namespace Sys2Proof.Config

/-- FREE VALUE (log entry 3). How many bytes of a withdrawn write the sink holds, one number for each draw: R81 and
R101 say "some prefix p of s" and no more. Nothing constrains it; a number above the length takes all of s. -/
opaque sinkPrefix : Nat → Nat

end Sys2Proof.Config
end

