-- ==== Sys2Proof/Machine/State.lean ====
section
/-! DEFINITION. The state of the machine: the core's registers DEC and ADP, its channels and outstanding requests
(R11 to R18), the source, sink and requester outside it (R19, R7), and the model's own schedule and draw counter. With
it the responses (R47), the reasons a step can stop, and the state after reset (R21, R100). -/

namespace Sys2Proof.Machine

/-- An I/O error payload. The spec leaves the type open (R6, D37); the model only passes it on (log entry 2). -/
structure IoErr where
  payload : Nat
deriving DecidableEq, Repr

/-- The status codes of R83. -/
inductive Status where
  | ok | none | invalidData | unexpectedEof | ioError | cancelled | illegalCommand | busy | notInitialised
deriving DecidableEq, Repr

/-- The decoder tag that `rtag` reports (R11, R47). -/
inductive Tag where
  | acc | done | failed
deriving DecidableEq, Repr

/-- DEC.kind, why a decode failed (R15). -/
inductive FailKind where
  | invalidData | unexpectedEof | ioError | cancelled
deriving DecidableEq, Repr

/-- DEC.state (R11): each alternative holds exactly the parts that a rule reads in it (R13, R15, log entry 16). -/
inductive DecState where
  | acc (bits : Acc) (n : Count)
  | done (value : Int) (n : Count)
  | failed (kind : FailKind) (n : Count)
deriving DecidableEq, Repr

/-- ADP (R17): the adapter operation in flight. -/
inductive Adp where
  | idle
  | rd (T : VType)
  | wr (T : VType) (s : List Byte)
deriving DecidableEq, Repr

/-- The source's answer to a byte request (R25). -/
inductive SrcAnswer where
  | byte (b : Byte)
  | eof
  | ioErr (e : IoErr)
deriving DecidableEq, Repr

/-- The sink's answer to a write request (R27). With IoErr the sink has taken the first `taken` bytes of what was
offered (all of it, if that is fewer). -/
inductive SnkAnswer where
  | ok
  | ioErr (e : IoErr) (taken : Nat)
deriving DecidableEq, Repr

/-- Whether a request is outstanding (R18): none is, or one is sent and not answered. -/
inductive Port where
  | none
  | waiting
deriving DecidableEq, Repr

/-- The byte source (R19): slice-backed with S and SRC.cur (R26), or an oracle with the bytes it has delivered so far
(the byte source's state of R108). -/
inductive Source where
  | slice (S : List Byte) (cur : Nat)
  | oracle (delivered : List Byte)
deriving DecidableEq, Repr

/-- One response, with all the fields of R47. An unset field is the one with code 0: `rtag` acc, `rkind` ok. -/
structure Response where
  status : Status
  rval : Val
  rlen : Count
  rbytes : Lanes
  rtag : Tag
  rkind : Status
  rcons : Bool
  rio : Option IoErr
deriving DecidableEq, Repr

/-- A response that sets nothing but its status (R47). -/
def Response.plain (st : Status) : Response := ⟨st, 0, 0, Lanes.zero, .acc, .ok, false, .none⟩

/-- One move of an agent or of the host (R7, R109), with what an oracle answers in it. An answer names the request it is to by
its age, how many requests of its kind were sent after that one, so 0 is the latest (log entry 8). No turn changes the bytes that
a slice-backed source has yet to deliver (the model's choice, log entry 24). -/
inductive Turn where
  /-- the core: ends an operation or takes a command -/
  | core
  /-- the requester issues the next command of its program -/
  | issue
  /-- the requester reads the oldest response of the response channel -/
  | readResponse
  /-- a source answers the byte request that is `age` requests old, and the core takes the answer (R107); an oracle gives
  `draw`, a slice-backed source what R26 says -/
  | source (age : Nat) (draw : SrcAnswer)
  /-- a sink answers the write request that is `age` requests old, and the core takes the answer (R107) -/
  | sink (age : Nat) (draw : SnkAnswer)
  /-- another reader consumes from the source (R97, SHARED_SOURCE) -/
  | foreignRead
  /-- the host attaches or replaces the byte source (R109) -/
  | attachSource (src : Source)
  /-- the host attaches or replaces the byte sink, with its SNK.data (R109) -/
  | attachSink (data : List Byte)
  /-- the reset input (R100) -/
  | reset
deriving DecidableEq, Repr

/-- The model's fault mark (R22, R97): a step that breaches the contract of a source or sink. Safe: nothing is claimed
of the run from there on. -/
inductive Fault where
  /-- raised by `foreignRead`: another reader consumes from the attached source while a RDVAR is in flight (R97). Safe. -/
  | sharedSource
  /-- raised by `source`: a source answers a byte request that was sent and is no longer outstanding, be a newer one
  outstanding or not: it answers twice or answers a withdrawn request (R97, R109). Safe. -/
  | sourceAnswerNotRequested
  /-- raised by `sink`: a sink answers a write request that was sent and is no longer outstanding, be a newer one outstanding
  or not: it answers twice or answers a withdrawn request (R97, R109). Safe. -/
  | sinkAnswerNotRequested
deriving DecidableEq, Repr

/-- What a step has no move for. -/
inductive Refusal where
  /-- an instruction that has no meaning in this model; no arm answers so. Safe. -/
  | notModelled (mnemonic : String)
  /-- raised by `attachSource` and `attachSink` while an adapter operation is in flight: "has no move: no rule covers it"
  (R109, I14, log entry 9). Safe. -/
  | attachInFlight
  /-- raised by `attachSource` of a slice-backed source whose cursor is past its end, which R19 rules out (log entry 9).
  Safe. -/
  | attachBadCursor
  /-- raised by `source` and `sink` where the answer is to a request that was never sent: no rule gives such an answer a
  move, and R97 does not name it as a fault (log entry 8). Safe. -/
  | answerNeverAsked
deriving DecidableEq, Repr

/-- The state of the machine. -/
structure State where
  /-- DEC.type, none for `unset` (R12) -/
  decType : Option VType
  /-- DEC.state with acc, count, value and kind (R11, R13 to R15) -/
  dec : DecState
  /-- ADP (R17) -/
  adp : Adp
  /-- the payload `io` of R79, kept for the response of R80 -/
  io : Option IoErr
  /-- the request channel, oldest first (R18) -/
  reqCh : List Request
  /-- the response channel, oldest first (R18) -/
  rspCh : List Response
  /-- the held responses, oldest first (R18, R48) -/
  held : List Response
  /-- the outstanding byte request (R18) -/
  byteReq : Port
  /-- the outstanding write request (R18); what it offers is ADP's s -/
  writeReq : Port
  /-- the sink's answer `ans` of R75, kept for the WRVAR's response -/
  ans : Option SnkAnswer
  /-- the byte source, none if none is attached (R19, R102) -/
  src : Option Source
  /-- SNK.data, none if no sink is attached (R19, R102) -/
  snk : Option (List Byte)
  /-- the requester's program, the commands it has yet to issue (R7, R108) -/
  program : List Request
  /-- the requester is a blocking one (R82) -/
  blocking : Bool
  /-- the responses the requester has read, oldest first (R7) -/
  received : List Response
  /-- the model's own: how many byte requests have been sent, which numbers them (log entry 8) -/
  srcSent : Nat
  /-- the model's own: how many write requests have been sent, which numbers them (log entry 8) -/
  snkSent : Nat
  /-- the model's own: the moves to come (log entry 1); once it is empty the core moves -/
  agenda : List Turn
  /-- the model's own: how many free values have been drawn (log entry 3) -/
  draws : Nat
deriving DecidableEq, Repr

/-- The state after reset: the core as R21 and R100 say. Nothing is attached to it and nothing scheduled: R101 leaves
what is outside the core alone, and the spec gives it no start value (log entry 10). -/
def State.reset : State where
  decType := .none
  dec := .acc 0 0
  adp := .idle
  io := .none
  reqCh := []
  rspCh := []
  held := []
  byteReq := .none
  writeReq := .none
  ans := .none
  src := .none
  snk := .none
  program := []
  blocking := false
  received := []
  srcSent := 0
  snkSent := 0
  agenda := []
  draws := 0

/-- What a meaning and a step answer. -/
abbrev Result := Host.Outcome State Fault Refusal

end Sys2Proof.Machine
end

