-- ==== Sys2Proof/Machine/Flags.lean ====
section
/-! DEFINITION. The core has no flags (R10): an outcome is carried by the response's status, tag and kind. This file
holds their codes (R11, R83) and what DSTEP and DEOF report of DEC (R71, R72). -/

namespace Sys2Proof.Machine

/-- The 4-bit status codes (R83). -/
def Status.code : Status → BitVec 4
  | .ok => 0x0
  | .none => 0x1
  | .invalidData => 0x2
  | .unexpectedEof => 0x3
  | .ioError => 0x4
  | .cancelled => 0x5
  | .illegalCommand => 0x6
  | .busy => 0x7
  | .notInitialised => 0x8

/-- The 2-bit tag codes (R11). -/
def Tag.code : Tag → BitVec 2
  | .acc => 0
  | .done => 1
  | .failed => 2

/-- The status code that names a FAILED kind (R15, R83). -/
def FailKind.status : FailKind → Status
  | .invalidData => .invalidData
  | .unexpectedEof => .unexpectedEof
  | .ioError => .ioError
  | .cancelled => .cancelled

/-- The tag of DEC.state (R11). -/
def DecState.tag : DecState → Tag
  | .acc _ _ => .acc
  | .done _ _ => .done
  | .failed _ _ => .failed

/-- DEC.count, the n of DEC.state (R14). -/
def DecState.count : DecState → Count
  | .acc _ n => n
  | .done _ n => n
  | .failed _ n => n

/-- DEC.state is terminal: DONE or FAILED (R11, R73). -/
def DecState.terminal : DecState → Bool
  | .acc _ _ => false
  | .done _ _ => true
  | .failed _ _ => true

/-- No adapter operation is in flight (R17). -/
def Adp.isIdle : Adp → Bool
  | .idle => true
  | .rd _ => false
  | .wr _ _ => false

end Sys2Proof.Machine
end

