-- ==== Sys2Proof/Machine/Operands.lean ====
section
/-! DEFINITION. The datapath over operands and results: reading `val` and the slice lanes, extending results, the two
zigzag maps, max_size, required_space and the encoder (R4, R5, R24, R39, R46, R47, R55, R56, R59 to R61). -/

namespace Sys2Proof.Machine

/-- M(T) = max_size(T) (R4, R59), the same for both signednesses of a width. -/
def maxSize (T : VType) : Nat :=
  match T.width with
  | .w8 => 2
  | .w16 => 3
  | .w32 => 5
  | .w64 => 10

/-- v lies in the domain of T (R5). -/
def inDomain (T : VType) (v : Int) : Bool :=
  if T.signed then decide (-(2 ^ (T.bits - 1)) ≤ v) && decide (v < 2 ^ (T.bits - 1))
  else decide (0 ≤ v) && decide (v < 2 ^ T.bits)

/-- val[W-1:0] (R46). -/
def lowBits (w : Width) (val : Val) : BitVec w.bits := val.setWidth w.bits

/-- operand_T(val): val[W-1:0] as a number of T's domain; val[63:W] is ignored (R46, R5). -/
def operand (T : VType) (val : Val) : Int :=
  if T.signed then (lowBits T.width val).toInt else (lowBits T.width val).toNat

/-- ext_T(v): zext_64 of an unsigned result, sext_64 of a signed one (R47, R62). -/
def extendResult (T : VType) (v : Int) : Val :=
  if T.signed then (BitVec.ofInt T.bits v).signExtend 64 else (BitVec.ofInt T.bits v).setWidth 64

/-- The slice operand: lanes 0 .. min(slen, 10) - 1 (R24, R46). -/
def sliceOperand (sb : Lanes) (slen : BitVec 4) : List Byte := sb.toList.take (min slen.toNat 10)

/-- zz_enc_W(x) = wrap_W((x << 1) xor (x >>a (W-1))) (R55). -/
def zzEnc {w : Nat} (x : BitVec w) : BitVec w := (x <<< 1) ^^^ x.sshiftRight (w - 1)

/-- zz_dec_W(u) = (u >> 1) xor wrap_W(0 - (u & 1)), read as signed by whoever uses it (R56). -/
def zzDec {w : Nat} (u : BitVec w) : BitVec w := (u >>> 1) ^^^ (0#w - (u &&& 1#w))

/-- The unsigned form of a value of type T (R5, R41). -/
def unsignedForm (T : VType) (v : Int) : Nat :=
  if T.signed then (zzEnc (BitVec.ofInt T.bits v)).toNat else v.toNat

/-- val_T(U), the value whose unsigned form is U (R67, R41). -/
def valueOf (T : VType) (U : Nat) : Int :=
  if T.signed then (zzDec (BitVec.ofNat T.bits U)).toInt else U

/-- bitlen(u), the number of binary digits, 0 for 0 (00 section 4). -/
def bitlen (u : Nat) : Nat := if u = 0 then 0 else u.log2 + 1

/-- required_space_T(v) = max(1, ceil(bitlen(u) / 7)) (R60). -/
def requiredSpace (T : VType) (v : Int) : Nat := max 1 ((bitlen (unsignedForm T v) + 6) / 7)

/-- The encoder's loop (R61), at most `fuel` groups: the low 7 bits go out with the continuation bit set as long as
higher bits remain. -/
def encodeGroups : Nat → Nat → List Byte
  | 0, _ => []
  | fuel + 1, u =>
    if u / 128 ≠ 0 then (0x80#8 ||| BitVec.ofNat 8 (u % 128)) :: encodeGroups fuel (u / 128)
    else [BitVec.ofNat 8 (u % 128)]

/-- encode_T(v) (R61). Ten groups hold every unsigned form, since W is at most 64. -/
def encodeVar (T : VType) (v : Int) : List Byte := encodeGroups 10 (unsignedForm T v)

end Sys2Proof.Machine
end

