-- ==== Sys2Proof/Machine/Fsm.lean ====
section
/-! DEFINITION. The decoder state machine: the step function, its end-of-input companion and the slice decoder, which
folds the step function over a slice (R63, R67, R68, R74). -/

namespace Sys2Proof.Machine

/-- The payload of a byte, its low 7 bits (R39, R67). -/
def payload (b : Byte) : BitVec 7 := b.extractLsb' 0 7

/-- The continuation bit of a byte, bit 7 (R39, R67). -/
def contBit (b : Byte) : Bool := b.getLsbD 7

/-- Step_T(st, b) (R67): overflow is tested first, then the terminator, then the M(T)-byte limit. -/
def stepDec (T : VType) (st : DecState) (b : Byte) : DecState :=
  match st with
  | .done v n => .done v n
  | .failed k n => .failed k n
  | .acc bits n =>
    let bits' : Acc := bits ||| ((payload b).setWidth 128 <<< (7 * n.toNat))
    let n' : Count := n + 1
    if 2 ^ T.bits ≤ bits'.toNat then .failed .invalidData n'
    else if contBit b = false then .done (valueOf T bits'.toNat) n'
    else if n'.toNat = maxSize T then .failed .invalidData n'
    else .acc bits' n'

/-- Eof_T(st) (R68). -/
def eofDec (st : DecState) : DecState :=
  match st with
  | .acc _ n => .failed .unexpectedEof n
  | .done v n => .done v n
  | .failed k n => .failed k n

/-- The loop of SliceDecode_T from a given state (R63). -/
def sliceLoop (T : VType) : DecState → List Byte → Option (Int × Count)
  | .done v n, _ => some (v, n)
  | .failed _ _, _ => none
  | .acc _ _, [] => none
  | .acc bits n, b :: s => sliceLoop T (stepDec T (.acc bits n) b) s

/-- SliceDecode_T(s) (R63). -/
def sliceDecode (T : VType) (s : List Byte) : Option (Int × Count) := sliceLoop T (.acc 0 0) s

end Sys2Proof.Machine
end

