-- ==== Sys2Proof/Machine/Ops.lean ====
section
/-! DEFINITION. The shared operations of the commands: placing a response, turning a command away (the core's one
error mechanism, R90), ending an adapter operation, sending and withdrawing requests (R18, R48, R79 to R81, R84 to R87). -/

namespace Sys2Proof.Machine

/-- Place a command's response: on the response channel, or among the held ones while an adapter operation is in
flight (R48). -/
def State.respond (s : State) (r : Response) : State :=
  { s with
    rspCh := if s.adp.isIdle then s.rspCh ++ [r] else s.rspCh
    held := if s.adp.isIdle then s.held else s.held ++ [r] }

/-- An error: the command is answered with its status and no state changes (R84, R85 to R87, R90). There is nothing to
return from: the requester's next command is the return (R90). -/
def State.reject (s : State) (st : Status) : State := s.respond (.plain st)

/-- Check 2 of R84: a command other than ABORT has its effect while ADP is IDLE, else it is turned away BUSY (R86). -/
def State.unlessBusy (s : State) (effect : State) : Result :=
  .next (if s.adp.isIdle then effect else s.reject .busy)

/-- End the operation in flight with its response: ADP goes to IDLE, no request is outstanding, and the held responses
join the channel after this one (R48, R80, R75). -/
def State.complete (s : State) (r : Response) : State :=
  { s with
    adp := .idle
    io := .none
    byteReq := .none
    writeReq := .none
    ans := .none
    rspCh := s.rspCh ++ r :: s.held
    held := [] }

/-- Withdraw an outstanding write of `offered`: the sink holds some prefix of it, a draw (R81, R101, I4, log entry 3).
A write already answered has nothing more to withdraw. -/
def State.withdrawWrite (s : State) (offered : List Byte) : State :=
  match s.writeReq with
  | .waiting =>
    { s with
      snk := s.snk.map (· ++ offered.take (Config.sinkPrefix s.draws))
      draws := s.draws + 1 }
  | _ => s

/-! ### What a decode reports -/

/-- DSTEP's and DEOF's response: tag, count, the value if DONE and the kind if FAILED (R71, R72). -/
def decReport (T : VType) (d : DecState) (cons : Bool) : Response :=
  { Response.plain .ok with
    rtag := d.tag
    rlen := d.count
    rcons := cons
    rval := match d with
      | .done v _ => extendResult T v
      | _ => 0
    rkind := match d with
      | .failed k _ => k.status
      | _ => .ok }

/-- RDVAR's response when DEC is terminal (R80). It is never made in ACC. -/
def readResponse (T : VType) (d : DecState) (io : Option IoErr) : Response :=
  match d with
  | .done v n => { Response.plain .ok with rval := extendResult T v, rlen := n }
  | .failed .ioError n => { Response.plain .ioError with rlen := n, rio := io }
  | .failed k n => { Response.plain k.status with rlen := n }
  | .acc _ n => { Response.plain .ok with rlen := n }

/-- WRVAR's response to the sink's answer (R75, R76). -/
def writeResponse (offered : List Byte) : SnkAnswer → Response
  | .ok => { Response.plain .ok with rlen := BitVec.ofNat 4 offered.length }
  | .ioErr e _ => { Response.plain .ioError with rio := some e }

/-! ### The adapters between their commands: R79, R80 and R75 -/

/-- DEC after an I/O error of the source, inside a RDVAR: the IoErr row of R69. -/
def ioErrDec : DecState → DecState
  | .acc _ n => .failed .ioError n
  | d => d

/-- DEC after one answer of the source, inside a RDVAR (R79). -/
def answerDec (T : VType) (d : DecState) : SrcAnswer → DecState
  | .byte b => stepDec T d b
  | .eof => eofDec d
  | .ioErr _ => ioErrDec d

/-- The payload `io` after one answer of the source (R79). -/
def answerIo : SrcAnswer → Option IoErr
  | .ioErr e => some e
  | _ => .none

/-- The type of the RDVAR whose byte request is outstanding (R17, R18). -/
def State.readWaits (s : State) : Option VType :=
  match s.adp, s.byteReq with
  | .rd T, .waiting => some T
  | _, _ => none

/-- The bytes offered by the WRVAR whose write request is outstanding (R17, R18, R27). -/
def State.writeWaits (s : State) : Option (List Byte) :=
  match s.adp, s.writeReq with
  | .wr _ offered, .waiting => some offered
  | _, _ => none

/-- The source's answer taken (R79). The next byte request goes out only if DEC is still ACC. -/
def State.advanceRead (s : State) (T : VType) (a : SrcAnswer) : State :=
  { s with
    dec := answerDec T s.dec a
    io := answerIo a
    byteReq := if (answerDec T s.dec a).terminal then .none else .waiting
    srcSent := if (answerDec T s.dec a).terminal then s.srcSent else s.srcSent + 1 }

/-- The sink's answer taken (R75): the write request is answered, and the WRVAR is ready to end. -/
def State.advanceWrite (s : State) (a : SnkAnswer) : State :=
  { s with writeReq := .none, ans := some a }

/-- What the core owes the operation in flight before it may take another command: the step that ends a RDVAR whose DEC is
terminal (R80) or a WRVAR whose sink has answered (R75), one step each (R107). That it comes before a command which waits is log
entry 5. -/
def State.coreDue (s : State) : Option State :=
  match s.adp with
  | .idle => .none
  | .rd T => if s.dec.terminal then some (s.complete (readResponse T s.dec s.io)) else .none
  | .wr _ offered =>
    match s.ans with
    | some a => some (s.complete (writeResponse offered a))
    | .none => .none

end Sys2Proof.Machine
end

