-- ==== Sys2Proof/Machine/Adapters.lean ====
section
/-! DEFINITION. The adapter commands: WRVAR starts a write, RDVAR starts a read, ABORT cancels either (R75, R78, R81). How a read or write goes
on and ends is State.coreDue. -/

namespace Sys2Proof.Machine

/-- WRVAR.T, its start: ADP takes the encoding and one write request for all of it goes out (R75, R27). -/
def runWrvar (T : VType) (val : Val) (s : State) : Result :=
  s.unlessBusy
    { s with
      adp := .wr T (encodeVar T (operand T val)), writeReq := .waiting, ans := .none
      snkSent := s.snkSent + 1 }

/-- RDVAR.T, its start: DEC becomes ACC(0, 0) of type T and the first byte request goes out (R78, R79). -/
def runRdvar (T : VType) (s : State) : Result :=
  s.unlessBusy
    { s with
      decType := some T, dec := .acc 0 0, adp := .rd T, io := .none, byteReq := .waiting
      srcSent := s.srcSent + 1 }

/-- wrvar.u8 (R75). -/
def execWrvarU8 (val : Val) (s : State) : Result := runWrvar .u8 val s

/-- wrvar.u16 (R75). -/
def execWrvarU16 (val : Val) (s : State) : Result := runWrvar .u16 val s

/-- wrvar.u32 (R75). -/
def execWrvarU32 (val : Val) (s : State) : Result := runWrvar .u32 val s

/-- wrvar.u64 (R75). -/
def execWrvarU64 (val : Val) (s : State) : Result := runWrvar .u64 val s

/-- wrvar.i8 (R75). -/
def execWrvarI8 (val : Val) (s : State) : Result := runWrvar .i8 val s

/-- wrvar.i16 (R75). -/
def execWrvarI16 (val : Val) (s : State) : Result := runWrvar .i16 val s

/-- wrvar.i32 (R75). -/
def execWrvarI32 (val : Val) (s : State) : Result := runWrvar .i32 val s

/-- wrvar.i64 (R75). -/
def execWrvarI64 (val : Val) (s : State) : Result := runWrvar .i64 val s

/-- rdvar.u8 (R78). -/
def execRdvarU8 (s : State) : Result := runRdvar .u8 s

/-- rdvar.u16 (R78). -/
def execRdvarU16 (s : State) : Result := runRdvar .u16 s

/-- rdvar.u32 (R78). -/
def execRdvarU32 (s : State) : Result := runRdvar .u32 s

/-- rdvar.u64 (R78). -/
def execRdvarU64 (s : State) : Result := runRdvar .u64 s

/-- rdvar.i8 (R78). -/
def execRdvarI8 (s : State) : Result := runRdvar .i8 s

/-- rdvar.i16 (R78). -/
def execRdvarI16 (s : State) : Result := runRdvar .i16 s

/-- rdvar.i32 (R78). -/
def execRdvarI32 (s : State) : Result := runRdvar .i32 s

/-- rdvar.i64 (R78). -/
def execRdvarI64 (s : State) : Result := runRdvar .i64 s

/-- abort: with nothing in flight, OK and no effect; otherwise the operation in flight is answered CANCELLED, then what was
held leaves, then ABORT's own OK (R81, R48). A cancelled read leaves DEC FAILED(CANCELLED, n); a cancelled write leaves some
prefix on the sink. -/
def execAbort (s : State) : Result :=
  match s.adp with
  | .idle => .next (s.respond (.plain .ok))
  | .rd _ =>
    .next (({ s with dec := .failed .cancelled s.dec.count }.complete
      { Response.plain .cancelled with rlen := s.dec.count }).respond (.plain .ok))
  | .wr _ offered => .next (((s.withdrawWrite offered).complete (.plain .cancelled)).respond (.plain .ok))

end Sys2Proof.Machine
end

