-- ==== Sys2Proof/Machine/Codec.lean ====
section
/-! DEFINITION. The varint_encoder commands and the slice path of varint_decoder (R59 to R63). They read their operands alone and touch
neither DEC nor ADP (R20). -/

namespace Sys2Proof.Machine

/-- VMAXSZ.T's response: rlen = M(T) (R59). -/
def vmaxszResponse (T : VType) : Response := { Response.plain .ok with rlen := BitVec.ofNat 4 (maxSize T) }

/-- VRSPACE.T's response: rlen = required_space_T(v) (R60). -/
def vrspaceResponse (T : VType) (val : Val) : Response :=
  { Response.plain .ok with rlen := BitVec.ofNat 4 (requiredSpace T (operand T val)) }

/-- VENC.T's response: the encoding on the lanes, its length in rlen (R61). -/
def vencResponse (T : VType) (val : Val) : Response :=
  let s := encodeVar T (operand T val)
  { Response.plain .ok with rbytes := Lanes.ofList s, rlen := BitVec.ofNat 4 s.length }

/-- VDEC.T's response: the value and the count, or NONE (R62, R93). -/
def vdecResponse (T : VType) (sb : Lanes) (slen : BitVec 4) : Response :=
  match sliceDecode T (sliceOperand sb slen) with
  | some (v, n) => { Response.plain .ok with rval := extendResult T v, rlen := n }
  | none => .plain .none

/-- VMAXSZ.T (R59). -/
def runVmaxsz (T : VType) (s : State) : Result := s.unlessBusy (s.respond (vmaxszResponse T))

/-- VRSPACE.T (R60). -/
def runVrspace (T : VType) (val : Val) (s : State) : Result := s.unlessBusy (s.respond (vrspaceResponse T val))

/-- VENC.T (R61). -/
def runVenc (T : VType) (val : Val) (s : State) : Result := s.unlessBusy (s.respond (vencResponse T val))

/-- VDEC.T (R62). -/
def runVdec (T : VType) (sb : Lanes) (slen : BitVec 4) (s : State) : Result :=
  s.unlessBusy (s.respond (vdecResponse T sb slen))

/-- vmaxsz.u8 (R59). -/
def execVmaxszU8 (s : State) : Result := runVmaxsz .u8 s

/-- vmaxsz.u16 (R59). -/
def execVmaxszU16 (s : State) : Result := runVmaxsz .u16 s

/-- vmaxsz.u32 (R59). -/
def execVmaxszU32 (s : State) : Result := runVmaxsz .u32 s

/-- vmaxsz.u64 (R59). -/
def execVmaxszU64 (s : State) : Result := runVmaxsz .u64 s

/-- vmaxsz.i8 (R59). -/
def execVmaxszI8 (s : State) : Result := runVmaxsz .i8 s

/-- vmaxsz.i16 (R59). -/
def execVmaxszI16 (s : State) : Result := runVmaxsz .i16 s

/-- vmaxsz.i32 (R59). -/
def execVmaxszI32 (s : State) : Result := runVmaxsz .i32 s

/-- vmaxsz.i64 (R59). -/
def execVmaxszI64 (s : State) : Result := runVmaxsz .i64 s

/-- vrspace.u8 (R60). -/
def execVrspaceU8 (val : Val) (s : State) : Result := runVrspace .u8 val s

/-- vrspace.u16 (R60). -/
def execVrspaceU16 (val : Val) (s : State) : Result := runVrspace .u16 val s

/-- vrspace.u32 (R60). -/
def execVrspaceU32 (val : Val) (s : State) : Result := runVrspace .u32 val s

/-- vrspace.u64 (R60). -/
def execVrspaceU64 (val : Val) (s : State) : Result := runVrspace .u64 val s

/-- vrspace.i8 (R60). -/
def execVrspaceI8 (val : Val) (s : State) : Result := runVrspace .i8 val s

/-- vrspace.i16 (R60). -/
def execVrspaceI16 (val : Val) (s : State) : Result := runVrspace .i16 val s

/-- vrspace.i32 (R60). -/
def execVrspaceI32 (val : Val) (s : State) : Result := runVrspace .i32 val s

/-- vrspace.i64 (R60). -/
def execVrspaceI64 (val : Val) (s : State) : Result := runVrspace .i64 val s

/-- venc.u8 (R61). -/
def execVencU8 (val : Val) (s : State) : Result := runVenc .u8 val s

/-- venc.u16 (R61). -/
def execVencU16 (val : Val) (s : State) : Result := runVenc .u16 val s

/-- venc.u32 (R61). -/
def execVencU32 (val : Val) (s : State) : Result := runVenc .u32 val s

/-- venc.u64 (R61). -/
def execVencU64 (val : Val) (s : State) : Result := runVenc .u64 val s

/-- venc.i8 (R61). -/
def execVencI8 (val : Val) (s : State) : Result := runVenc .i8 val s

/-- venc.i16 (R61). -/
def execVencI16 (val : Val) (s : State) : Result := runVenc .i16 val s

/-- venc.i32 (R61). -/
def execVencI32 (val : Val) (s : State) : Result := runVenc .i32 val s

/-- venc.i64 (R61). -/
def execVencI64 (val : Val) (s : State) : Result := runVenc .i64 val s

/-- vdec.u8 (R62). -/
def execVdecU8 (sb : Lanes) (slen : BitVec 4) (s : State) : Result := runVdec .u8 sb slen s

/-- vdec.u16 (R62). -/
def execVdecU16 (sb : Lanes) (slen : BitVec 4) (s : State) : Result := runVdec .u16 sb slen s

/-- vdec.u32 (R62). -/
def execVdecU32 (sb : Lanes) (slen : BitVec 4) (s : State) : Result := runVdec .u32 sb slen s

/-- vdec.u64 (R62). -/
def execVdecU64 (sb : Lanes) (slen : BitVec 4) (s : State) : Result := runVdec .u64 sb slen s

/-- vdec.i8 (R62). -/
def execVdecI8 (sb : Lanes) (slen : BitVec 4) (s : State) : Result := runVdec .i8 sb slen s

/-- vdec.i16 (R62). -/
def execVdecI16 (sb : Lanes) (slen : BitVec 4) (s : State) : Result := runVdec .i16 sb slen s

/-- vdec.i32 (R62). -/
def execVdecI32 (sb : Lanes) (slen : BitVec 4) (s : State) : Result := runVdec .i32 sb slen s

/-- vdec.i64 (R62). -/
def execVdecI64 (sb : Lanes) (slen : BitVec 4) (s : State) : Result := runVdec .i64 sb slen s

end Sys2Proof.Machine
end

