-- ==== Sys2Proof/Machine/Decoder.lean ====
section
/-! DEFINITION. The commands that drive the decoder state machine in DEC: DINIT, DSTEP and DEOF (R70 to R73). -/

namespace Sys2Proof.Machine

/-- DINIT.T: DEC becomes ACC(0, 0) of type T, whatever it was (R70). -/
def runDinit (T : VType) (s : State) : Result :=
  s.unlessBusy ({ s with decType := some T, dec := .acc 0 0 }.respond (decReport T (.acc 0 0) false))

/-- dinit.u8 (R70). -/
def execDinitU8 (s : State) : Result := runDinit .u8 s

/-- dinit.u16 (R70). -/
def execDinitU16 (s : State) : Result := runDinit .u16 s

/-- dinit.u32 (R70). -/
def execDinitU32 (s : State) : Result := runDinit .u32 s

/-- dinit.u64 (R70). -/
def execDinitU64 (s : State) : Result := runDinit .u64 s

/-- dinit.i8 (R70). -/
def execDinitI8 (s : State) : Result := runDinit .i8 s

/-- dinit.i16 (R70). -/
def execDinitI16 (s : State) : Result := runDinit .i16 s

/-- dinit.i32 (R70). -/
def execDinitI32 (s : State) : Result := runDinit .i32 s

/-- dinit.i64 (R70). -/
def execDinitI64 (s : State) : Result := runDinit .i64 s

/-- dstep: one byte to DEC; rcons says whether it was consumed. NOT_INITIALISED while DEC.type is unset (R71, R87). -/
def execDstep (b : Byte) (s : State) : Result :=
  s.unlessBusy
    (match s.decType with
     | none => s.reject .notInitialised
     | some T =>
       { s with dec := stepDec T s.dec b }.respond (decReport T (stepDec T s.dec b) (!s.dec.terminal)))

/-- deof: end-of-input to DEC. NOT_INITIALISED while DEC.type is unset (R72, R87). -/
def execDeof (s : State) : Result :=
  s.unlessBusy
    (match s.decType with
     | none => s.reject .notInitialised
     | some T => { s with dec := eofDec s.dec }.respond (decReport T (eofDec s.dec) false))

end Sys2Proof.Machine
end

