-- ==== Sys2Proof/Machine/Zigzag.lean ====
section
/-! DEFINITION. The zigzag_encoder and zigzag_decoder commands (R55, R56). -/

namespace Sys2Proof.Machine

/-- ZZENC.iW's response: rval = zext_64(zz_enc_W(x)) (R55). -/
def zzencResponse (w : Width) (val : Val) : Response :=
  { Response.plain .ok with rval := (zzEnc (lowBits w val)).setWidth 64 }

/-- ZZDEC.iW's response: rval = sext_64(zz_dec_W(u)) (R56). -/
def zzdecResponse (w : Width) (val : Val) : Response :=
  { Response.plain .ok with rval := (zzDec (lowBits w val)).signExtend 64 }

/-- ZZENC.iW (R55). -/
def runZzenc (w : Width) (val : Val) (s : State) : Result := s.unlessBusy (s.respond (zzencResponse w val))

/-- ZZDEC.iW (R56). -/
def runZzdec (w : Width) (val : Val) (s : State) : Result := s.unlessBusy (s.respond (zzdecResponse w val))

/-- zzenc.i8 (R55). -/
def execZzencI8 (val : Val) (s : State) : Result := runZzenc .w8 val s

/-- zzenc.i16 (R55). -/
def execZzencI16 (val : Val) (s : State) : Result := runZzenc .w16 val s

/-- zzenc.i32 (R55). -/
def execZzencI32 (val : Val) (s : State) : Result := runZzenc .w32 val s

/-- zzenc.i64 (R55). -/
def execZzencI64 (val : Val) (s : State) : Result := runZzenc .w64 val s

/-- zzdec.i8 (R56). -/
def execZzdecI8 (val : Val) (s : State) : Result := runZzdec .w8 val s

/-- zzdec.i16 (R56). -/
def execZzdecI16 (val : Val) (s : State) : Result := runZzdec .w16 val s

/-- zzdec.i32 (R56). -/
def execZzdecI32 (val : Val) (s : State) : Result := runZzdec .w32 val s

/-- zzdec.i64 (R56). -/
def execZzdecI64 (val : Val) (s : State) : Result := runZzdec .w64 val s

end Sys2Proof.Machine
end

