-- ==== Sys2Proof/Machine/Dispatch.lean ====
section
/-! DEFINITION. The dispatch of a command to its meaning, one arm per constructor. -/

namespace Sys2Proof.Machine

def exec (i : Instr) (s : State) : Host.Outcome State Fault Refusal :=
  match i with
  -- zzenc
  | .zzencI8 val => Sys2Proof.Machine.execZzencI8 val s
  | .zzencI16 val => Sys2Proof.Machine.execZzencI16 val s
  | .zzencI32 val => Sys2Proof.Machine.execZzencI32 val s
  | .zzencI64 val => Sys2Proof.Machine.execZzencI64 val s
  -- zzdec
  | .zzdecI8 val => Sys2Proof.Machine.execZzdecI8 val s
  | .zzdecI16 val => Sys2Proof.Machine.execZzdecI16 val s
  | .zzdecI32 val => Sys2Proof.Machine.execZzdecI32 val s
  | .zzdecI64 val => Sys2Proof.Machine.execZzdecI64 val s
  -- vmaxsz
  | .vmaxszU8 => Sys2Proof.Machine.execVmaxszU8 s
  | .vmaxszU16 => Sys2Proof.Machine.execVmaxszU16 s
  | .vmaxszU32 => Sys2Proof.Machine.execVmaxszU32 s
  | .vmaxszU64 => Sys2Proof.Machine.execVmaxszU64 s
  | .vmaxszI8 => Sys2Proof.Machine.execVmaxszI8 s
  | .vmaxszI16 => Sys2Proof.Machine.execVmaxszI16 s
  | .vmaxszI32 => Sys2Proof.Machine.execVmaxszI32 s
  | .vmaxszI64 => Sys2Proof.Machine.execVmaxszI64 s
  -- vrspace
  | .vrspaceU8 val => Sys2Proof.Machine.execVrspaceU8 val s
  | .vrspaceU16 val => Sys2Proof.Machine.execVrspaceU16 val s
  | .vrspaceU32 val => Sys2Proof.Machine.execVrspaceU32 val s
  | .vrspaceU64 val => Sys2Proof.Machine.execVrspaceU64 val s
  | .vrspaceI8 val => Sys2Proof.Machine.execVrspaceI8 val s
  | .vrspaceI16 val => Sys2Proof.Machine.execVrspaceI16 val s
  | .vrspaceI32 val => Sys2Proof.Machine.execVrspaceI32 val s
  | .vrspaceI64 val => Sys2Proof.Machine.execVrspaceI64 val s
  -- venc
  | .vencU8 val => Sys2Proof.Machine.execVencU8 val s
  | .vencU16 val => Sys2Proof.Machine.execVencU16 val s
  | .vencU32 val => Sys2Proof.Machine.execVencU32 val s
  | .vencU64 val => Sys2Proof.Machine.execVencU64 val s
  | .vencI8 val => Sys2Proof.Machine.execVencI8 val s
  | .vencI16 val => Sys2Proof.Machine.execVencI16 val s
  | .vencI32 val => Sys2Proof.Machine.execVencI32 val s
  | .vencI64 val => Sys2Proof.Machine.execVencI64 val s
  -- vdec
  | .vdecU8 sb slen => Sys2Proof.Machine.execVdecU8 sb slen s
  | .vdecU16 sb slen => Sys2Proof.Machine.execVdecU16 sb slen s
  | .vdecU32 sb slen => Sys2Proof.Machine.execVdecU32 sb slen s
  | .vdecU64 sb slen => Sys2Proof.Machine.execVdecU64 sb slen s
  | .vdecI8 sb slen => Sys2Proof.Machine.execVdecI8 sb slen s
  | .vdecI16 sb slen => Sys2Proof.Machine.execVdecI16 sb slen s
  | .vdecI32 sb slen => Sys2Proof.Machine.execVdecI32 sb slen s
  | .vdecI64 sb slen => Sys2Proof.Machine.execVdecI64 sb slen s
  -- dinit
  | .dinitU8 => Sys2Proof.Machine.execDinitU8 s
  | .dinitU16 => Sys2Proof.Machine.execDinitU16 s
  | .dinitU32 => Sys2Proof.Machine.execDinitU32 s
  | .dinitU64 => Sys2Proof.Machine.execDinitU64 s
  | .dinitI8 => Sys2Proof.Machine.execDinitI8 s
  | .dinitI16 => Sys2Proof.Machine.execDinitI16 s
  | .dinitI32 => Sys2Proof.Machine.execDinitI32 s
  | .dinitI64 => Sys2Proof.Machine.execDinitI64 s
  -- dstep
  | .dstep b => Sys2Proof.Machine.execDstep b s
  -- deof
  | .deof => Sys2Proof.Machine.execDeof s
  -- wrvar
  | .wrvarU8 val => Sys2Proof.Machine.execWrvarU8 val s
  | .wrvarU16 val => Sys2Proof.Machine.execWrvarU16 val s
  | .wrvarU32 val => Sys2Proof.Machine.execWrvarU32 val s
  | .wrvarU64 val => Sys2Proof.Machine.execWrvarU64 val s
  | .wrvarI8 val => Sys2Proof.Machine.execWrvarI8 val s
  | .wrvarI16 val => Sys2Proof.Machine.execWrvarI16 val s
  | .wrvarI32 val => Sys2Proof.Machine.execWrvarI32 val s
  | .wrvarI64 val => Sys2Proof.Machine.execWrvarI64 val s
  -- rdvar
  | .rdvarU8 => Sys2Proof.Machine.execRdvarU8 s
  | .rdvarU16 => Sys2Proof.Machine.execRdvarU16 s
  | .rdvarU32 => Sys2Proof.Machine.execRdvarU32 s
  | .rdvarU64 => Sys2Proof.Machine.execRdvarU64 s
  | .rdvarI8 => Sys2Proof.Machine.execRdvarI8 s
  | .rdvarI16 => Sys2Proof.Machine.execRdvarI16 s
  | .rdvarI32 => Sys2Proof.Machine.execRdvarI32 s
  | .rdvarI64 => Sys2Proof.Machine.execRdvarI64 s
  -- abort
  | .abort => Sys2Proof.Machine.execAbort s

end Sys2Proof.Machine
end

