-- ==== Sys2Proof/Machine/Agents.lean ====
section
/-! DEFINITION. The moves of the agents (R7) and of the host (R109): taking a command, the requester's, source's and
sink's turns, attaching, and reset. -/

namespace Sys2Proof.Machine

/-! ### The core -/

/-- The core runs a command it has taken: check 1 of R84 is the decoder's, the rest the command's own. An illegal word is
answered ILLEGAL_COMMAND, held if an adapter operation is in flight (R50, R85). -/
def runCommand (r : Request) (s : State) : Result :=
  match decode r with
  | .instr i => exec i s
  | .illegal _ => .next (s.reject .illegalCommand)

/-- The core's move: what it owes the operation in flight, else the oldest command of the request channel (R32), else it
waits (R33). -/
def coreTurn (s : State) : Result :=
  match s.coreDue with
  | some s' => .next s'
  | none =>
    match s.reqCh with
    | [] => .next s
    | r :: rest => runCommand r { s with reqCh := rest }

/-! ### The requester -/

/-- The request is a RDVAR or a WRVAR. -/
def isAdapterCommand (r : Request) : Bool := !r.cmd.getLsbD 3 && (cmdOp r.cmd == 0x9 || cmdOp r.cmd == 0xA)

/-- The requester must wait: it is a blocking one and a RDVAR or WRVAR of its own is in flight or on its way (R82, log
entry 12). -/
def State.requesterWaits (s : State) : Bool :=
  s.blocking && (!s.adp.isIdle || s.reqCh.any isAdapterCommand)

/-- The requester issues its next command, if it has one and need not wait (R7, R82). An ABORT in the program of a blocking
requester is issued like any other command once nothing is in flight (the model's choice, log entry 12). -/
def issueTurn (s : State) : State :=
  match s.program with
  | [] => s
  | r :: rest => if s.requesterWaits then s else { s with program := rest, reqCh := s.reqCh ++ [r] }

/-- The requester reads the oldest response, if there is one (R7, R18, log entry 22). -/
def readTurn (s : State) : State :=
  match s.rspCh with
  | [] => s
  | r :: rest => { s with rspCh := rest, received := s.received ++ [r] }

/-! ### The byte source -/

/-- A source's answer to a byte request, and the source after it (R25, R26): a slice-backed one delivers the byte at its
cursor or Eof and never IoErr; an oracle gives what is drawn. -/
def Source.answer (src : Source) (draw : SrcAnswer) : SrcAnswer × Source :=
  match src with
  | .slice S cur =>
    match S[cur]? with
    | some b => (.byte b, .slice S (cur + 1))
    | none => (.eof, .slice S cur)
  | .oracle delivered =>
    match draw with
    | .byte b => (.byte b, .oracle (delivered ++ [b]))
    | .eof => (.eof, .oracle delivered)
    | .ioErr e => (.ioErr e, .oracle delivered)

/-- A source's answer to the byte request that is `age` requests old, and in the same step the taking of it (R25, R79; one step
per answer, R107; log entry 6). To the outstanding request, the latest, it is the attached source's. To a request sent earlier, or
to the latest one once that is answered or withdrawn, it breaches the contract, be a newer request outstanding or not and
whichever source gives it (R97). To a request that was never sent it has no move (the model's choice, log entry 8). With no
source attached nobody answers (R102). -/
def sourceTurn (age : Nat) (draw : SrcAnswer) (s : State) : Result :=
  match s.src with
  | none => .next s
  | some src =>
    match age, s.readWaits with
    | 0, some T => .next ({ s with src := some (src.answer draw).2 }.advanceRead T (src.answer draw).1)
    | _, _ => if age < s.srcSent then .fault .sourceAnswerNotRequested else .refused .answerNeverAsked

/-- The source after another reader has consumed one byte of it: a slice-backed one moves on as for any reader (R26), an
oracle shows nothing (log entry 13). -/
def Source.consumed : Source → Source
  | .slice S cur => (Source.answer (.slice S cur) .eof).2
  | .oracle delivered => .oracle delivered

/-- Another reader consumes one byte from the attached source: a breach while a RDVAR is in flight (R97, I1); otherwise the
source moves on (log entry 13). With no source attached there is nothing to share and the turn passes, with a RDVAR in flight or
not (the model's choice, log entry 13). -/
def foreignReadTurn (s : State) : Result :=
  match s.src with
  | none => .next s
  | some src =>
    match s.adp with
    | .rd _ => .fault .sharedSource
    | _ => .next { s with src := some src.consumed }

/-! ### The byte sink -/

/-- The bytes a WRVAR in flight offers (R17, R27). -/
def Adp.offered : Adp → List Byte
  | .wr _ offered => offered
  | _ => []

/-- How much of `offered` the sink has taken with its answer (R27). -/
def SnkAnswer.accepted (offered : List Byte) : SnkAnswer → List Byte
  | .ok => offered
  | .ioErr _ taken => offered.take taken

/-- A sink's answer to the write request that is `age` requests old, having appended what it took, and in the same step the
taking of it (R27, R75; one step per answer, R107; log entry 6). To the outstanding request, the latest, it is the attached
sink's. To a request sent earlier, or to the latest one once that is answered or withdrawn, it breaches the contract, be a newer
request outstanding or not and whichever sink gives it (R97, R109). To a request that was never sent it has no move (the model's
choice, log entry 8). With no sink attached nobody answers (R102, log entry 14). -/
def sinkTurn (age : Nat) (draw : SnkAnswer) (s : State) : Result :=
  match s.snk with
  | none => .next s
  | some data =>
    match age, s.writeWaits with
    | 0, some offered => .next ({ s with snk := some (data ++ draw.accepted offered) }.advanceWrite draw)
    | _, _ => if age < s.snkSent then .fault .sinkAnswerNotRequested else .refused .answerNeverAsked

/-! ### The host -/

/-- The cursor of a source is within its bytes (R19). -/
def Source.cursorOk : Source → Bool
  | .slice S cur => decide (cur ≤ S.length)
  | .oracle _ => true

/-- The host attaches or replaces the source, only while ADP = IDLE (R109, I14). -/
def attachSourceTurn (src : Source) (s : State) : Result :=
  if s.adp.isIdle then
    if src.cursorOk then .next { s with src := some src } else .refused .attachBadCursor
  else .refused .attachInFlight

/-- The host attaches or replaces the sink, only while ADP = IDLE (R109, I14). -/
def attachSinkTurn (data : List Byte) (s : State) : Result :=
  if s.adp.isIdle then .next { s with snk := some data } else .refused .attachInFlight

/-- The reset input (R100, R101): the core goes to its reset values, nothing in flight or queued is answered, the source
keeps what it gave, the sink keeps some prefix of a write that is withdrawn. What is outside the core stays, and so do the
numbers of the requests (log entry 8). A RDVAR dropped after its last byte was taken and before its end step may have n = M(T),
where R101 has n < M(T) (the model's choice, log entry 6). -/
def resetTurn (s : State) : State :=
  let w := s.withdrawWrite s.adp.offered
  { State.reset with
    src := w.src
    snk := w.snk
    program := w.program
    blocking := w.blocking
    received := w.received
    srcSent := w.srcSent
    snkSent := w.snkSent
    agenda := w.agenda
    draws := w.draws }

/-! ### One move, and the next command from outside -/

/-- One scheduled move. -/
def takeTurn (t : Turn) (s : State) : Result :=
  match t with
  | .core => coreTurn s
  | .issue => .next (issueTurn s)
  | .readResponse => .next (readTurn s)
  | .source age draw => sourceTurn age draw s
  | .sink age draw => sinkTurn age draw s
  | .foreignRead => foreignReadTurn s
  | .attachSource src => attachSourceTurn src s
  | .attachSink data => attachSinkTurn data s
  | .reset => .next (resetTurn s)

/-- The machine's next move: the next turn of the agenda, and the core's once the agenda is empty (log entry 1). -/
def nextMove (s : State) : Result :=
  match s.agenda with
  | [] => coreTurn s
  | t :: rest => takeTurn t { s with agenda := rest }

/-- `s` with `r` as the command the core takes in the very next step: it stands first on the request channel and the core
has the next turn. Where the core owes something to an operation in flight, that operation is dropped and what was held joins
the channel, since the core takes no command before it (log entries 5 and 11). -/
def State.placeCommand (s : State) (r : Request) : State :=
  let s := match s.coreDue with
    | some _ =>
      { s with
        adp := .idle, io := .none, byteReq := .none, writeReq := .none, ans := .none
        rspCh := s.rspCh ++ s.held, held := [] }
    | none => s
  { s with agenda := .core :: s.agenda, reqCh := r :: s.reqCh }

/-! ### The end of a run -/

/-- The end of a run (R108): every command issued, none waits for its response, ADP idle, no request outstanding. Commands that
reset dropped have no response (R101) and wait for none, so a run in which reset was asserted, of which R108 says nothing, counts
as ended by the same test (the model's choice, log entry 25). -/
def State.runEnded (s : State) : Bool :=
  s.program.isEmpty && s.reqCh.isEmpty && s.held.isEmpty && s.adp.isIdle && s.byteReq == .none &&
    s.writeReq == .none

end Sys2Proof.Machine
end

