-- ==== Sys2Proof/Machine/Step.lean ====
section
/-! DEFINITION. One step of the machine (R7, R107) and the placing of an opcode table word where the next step takes its
command. -/

namespace Sys2Proof.Machine

/-- One step: one agent's or the host's move. -/
def step (s : State) : Host.Outcome State Fault Refusal := nextMove s

/-- `s` with the table's word as the command the next step takes and runs. A word is 8 bits (R44), so `nbits` tells
nothing more; the operand fields are 0 (log entries 11 and 18). -/
def State.withFetchWord (s : State) (_nbits w : Nat) : State := s.placeCommand (requestOfWord w)

end Sys2Proof.Machine
end

