-- ==== Sys2Proof/Machine/Assembler.lean ====
section
/-! DEFINITION. The assembly syntax of R52: a line of text to a command word with its operand fields, or a named refusal.
Spacing, hex letter case and leading zeros are read as log entry 20 says. -/

namespace Sys2Proof.Machine.Asm

/-- The twelve mnemonics of R49. -/
inductive Mnemonic where
  | zzenc | zzdec | vmaxsz | vrspace | venc | vdec | dinit | dstep | deof | wrvar | rdvar | abort
deriving DecidableEq, Repr

/-- A number as written: with or without a leading minus. -/
structure Numeral where
  neg : Bool
  mag : Nat
deriving DecidableEq, Repr

/-- The integer a numeral stands for. -/
def Numeral.value (n : Numeral) : Int := if n.neg then -(n.mag : Int) else n.mag

/-- An operand as written (R52). -/
inductive Operand where
  | absent
  | number (n : Numeral)
  | bytes (s : List Numeral)
deriving DecidableEq, Repr

/-- A line as written (R52). -/
structure Line where
  mnemonic : Mnemonic
  type : Option VType
  operand : Operand
deriving DecidableEq, Repr

/-- Why a line is refused (R52). -/
inductive LineRefusal where
  | unknownMnemonic
  | typeNotAllowed
  | operandOutOfRange
  /-- not a line of the grammar: an unknown type name, a malformed operand, or an operand missing or not expected -/
  | malformed
deriving DecidableEq, Repr

/-- What the assembler answers for one line. -/
inductive Answer where
  | command (r : Request)
  | refused (why : LineRefusal)
deriving DecidableEq, Repr

/-! ### From a line to a command -/

/-- A byte of a slice or of dstep: no minus sign, at most 255 (R52). -/
def byteOf (n : Numeral) : Option Byte := if !n.neg && decide (n.mag < 256) then some (BitVec.ofNat 8 n.mag) else none

/-- The bytes of a slice, if each is one. -/
def bytesOf : List Numeral → Option (List Byte)
  | [] => some []
  | n :: ns =>
    match byteOf n, bytesOf ns with
    | some b, some bs => some (b :: bs)
    | _, _ => none

/-- A command with an integer operand: `val` is zext_64 (unsigned) or sext_64 (signed) of its W-bit form (R52). `dom` is
the type whose domain the operand must lie in. -/
def withInteger (dom : VType) (o : Operand) (command : Val → Instr) : Answer :=
  match o with
  | .number n =>
    if inDomain dom n.value then .command (encode (command (extendResult dom n.value))) else .refused .operandOutOfRange
  | _ => .refused .malformed

/-- A command with no operand. -/
def withNothing (o : Operand) (command : Instr) : Answer :=
  match o with
  | .absent => .command (encode command)
  | _ => .refused .malformed

/-- A vdec: sb[i] for i < min(L, 10), slen = min(L, 10), the other lanes 0 (R52). -/
def withSlice (o : Operand) (command : Lanes → BitVec 4 → Instr) : Answer :=
  match o with
  | .bytes ns =>
    match bytesOf ns with
    | some s => .command (encode (command (Lanes.ofList s) (BitVec.ofNat 4 (min s.length 10))))
    | none => .refused .operandOutOfRange
  | _ => .refused .malformed

/-- A dstep: sets b (R52). -/
def withByte (o : Operand) (command : Byte → Instr) : Answer :=
  match o with
  | .number n =>
    match byteOf n with
    | some b => .command (encode (command b))
    | none => .refused .operandOutOfRange
  | _ => .refused .malformed

/-- A command that takes any of the eight types (R52). -/
def withType (t : Option VType) (k : VType → Answer) : Answer :=
  match t with
  | some T => k T
  | none => .refused .typeNotAllowed

/-- A command that takes i8, i16, i32 or i64 only (R52). -/
def withSignedType (t : Option VType) (k : Width → Answer) : Answer :=
  match t with
  | some ⟨w, true⟩ => k w
  | _ => .refused .typeNotAllowed

/-- A command that takes no type (R52). -/
def withoutType (t : Option VType) (k : Answer) : Answer :=
  match t with
  | none => k
  | some _ => .refused .typeNotAllowed

/-- One line to its command (R52). -/
def assembleLine (l : Line) : Answer :=
  match l.mnemonic with
  | .zzenc => withSignedType l.type fun w => withInteger ⟨w, true⟩ l.operand (Instr.zzenc w)
  | .zzdec => withSignedType l.type fun w => withInteger ⟨w, false⟩ l.operand (Instr.zzdec w)
  | .vmaxsz => withType l.type fun T => withNothing l.operand (.vmaxsz T)
  | .vrspace => withType l.type fun T => withInteger T l.operand (Instr.vrspace T)
  | .venc => withType l.type fun T => withInteger T l.operand (Instr.venc T)
  | .vdec => withType l.type fun T => withSlice l.operand (Instr.vdec T)
  | .dinit => withType l.type fun T => withNothing l.operand (.dinit T)
  | .dstep => withoutType l.type (withByte l.operand Instr.dstep)
  | .deof => withoutType l.type (withNothing l.operand .deof)
  | .wrvar => withType l.type fun T => withInteger T l.operand (Instr.wrvar T)
  | .rdvar => withType l.type fun T => withNothing l.operand (.rdvar T)
  | .abort => withoutType l.type (withNothing l.operand .abort)

/-! ### From text to a line -/

/-- The pieces of a text between the separators. -/
def splitAtChar (sep : Char) : List Char → List (List Char)
  | [] => [[]]
  | c :: cs =>
    if c = sep then [] :: splitAtChar sep cs
    else match splitAtChar sep cs with
      | [] => [[c]]
      | p :: ps => (c :: p) :: ps

/-- The text without the spaces around it. -/
def trimSpaces (cs : List Char) : List Char :=
  ((cs.dropWhile (· = ' ')).reverse.dropWhile (· = ' ')).reverse

/-- The value of a digit in a base of 10 or 16; hex letters in either case. -/
def digitValue (base : Nat) (c : Char) : Option Nat :=
  let n := c.toNat
  let v :=
    if 48 ≤ n ∧ n ≤ 57 then n - 48
    else if 65 ≤ n ∧ n ≤ 70 then n - 55
    else if 97 ≤ n ∧ n ≤ 102 then n - 87
    else base
  if v < base then some v else none

/-- The digits of a text in a base, most significant first, after the value read so far. -/
def digitsValue (base : Nat) (acc : Nat) : List Char → Option Nat
  | [] => some acc
  | c :: cs =>
    match digitValue base c with
    | some v => digitsValue base (base * acc + v) cs
    | none => none

/-- A decimal or a 0x number without a sign; it has at least one digit. -/
def parseMagnitude (cs : List Char) : Option Nat :=
  match cs with
  | [] => none
  | ['0', 'x'] => none
  | '0' :: 'x' :: hex => digitsValue 16 0 hex
  | _ => digitsValue 10 0 cs

/-- An integer of R52. -/
def parseNumeral (cs : List Char) : Option Numeral :=
  match cs with
  | '-' :: rest => (parseMagnitude rest).map (Numeral.mk true)
  | _ => (parseMagnitude cs).map (Numeral.mk false)

/-- The numbers of a bracketed list. -/
def parseNumerals : List (List Char) → Option (List Numeral)
  | [] => some []
  | p :: ps =>
    match parseNumeral (trimSpaces p), parseNumerals ps with
    | some n, some ns => some (n :: ns)
    | _, _ => none

/-- What stands between the brackets of a slice, then the closing bracket. -/
def parseSlice (cs : List Char) : Option (List Numeral) :=
  match cs.reverse with
  | ']' :: inside =>
    match trimSpaces inside.reverse with
    | [] => some []
    | body => parseNumerals (splitAtChar ',' body)
  | _ => none

/-- An operand of R52. -/
def parseOperand (cs : List Char) : Option Operand :=
  match trimSpaces cs with
  | [] => some .absent
  | '[' :: rest => (parseSlice rest).map Operand.bytes
  | body => (parseNumeral body).map Operand.number

/-- The type names of R52. -/
def parseType (cs : List Char) : Option VType :=
  match cs with
  | ['u', '8'] => some .u8
  | ['u', '1', '6'] => some .u16
  | ['u', '3', '2'] => some .u32
  | ['u', '6', '4'] => some .u64
  | ['i', '8'] => some .i8
  | ['i', '1', '6'] => some .i16
  | ['i', '3', '2'] => some .i32
  | ['i', '6', '4'] => some .i64
  | _ => none

/-- The mnemonics of R49. -/
def parseMnemonic (cs : List Char) : Option Mnemonic :=
  match cs with
  | ['z', 'z', 'e', 'n', 'c'] => some .zzenc
  | ['z', 'z', 'd', 'e', 'c'] => some .zzdec
  | ['v', 'm', 'a', 'x', 's', 'z'] => some .vmaxsz
  | ['v', 'r', 's', 'p', 'a', 'c', 'e'] => some .vrspace
  | ['v', 'e', 'n', 'c'] => some .venc
  | ['v', 'd', 'e', 'c'] => some .vdec
  | ['d', 'i', 'n', 'i', 't'] => some .dinit
  | ['d', 's', 't', 'e', 'p'] => some .dstep
  | ['d', 'e', 'o', 'f'] => some .deof
  | ['w', 'r', 'v', 'a', 'r'] => some .wrvar
  | ['r', 'd', 'v', 'a', 'r'] => some .rdvar
  | ['a', 'b', 'o', 'r', 't'] => some .abort
  | _ => none

/-- The first word of a line and the text after it. -/
def splitWord (cs : List Char) : List Char × List Char :=
  let t := trimSpaces cs
  (t.takeWhile (· ≠ ' '), t.dropWhile (· ≠ ' '))

/-- The mnemonic and type of a line with its operand still to be read. -/
def lineOf (m : Mnemonic) (t : Option VType) (operand : List Char) : Answer :=
  match parseOperand operand with
  | some o => assembleLine ⟨m, t, o⟩
  | none => .refused .malformed

/-- One line of text to its command (R52). -/
def assemble (cs : List Char) : Answer :=
  match splitAtChar '.' (splitWord cs).1 with
  | [m] =>
    match parseMnemonic m with
    | some m => lineOf m none (splitWord cs).2
    | none => .refused .unknownMnemonic
  | [m, t] =>
    match parseMnemonic m, parseType t with
    | some m, some T => lineOf m (some T) (splitWord cs).2
    | some _, none => .refused .malformed
    | none, _ => .refused .unknownMnemonic
  | _ => .refused .malformed

/-- What the assembler answers for a program: its commands, or the first line refused, counted from 0 (R52, "by line"). -/
inductive ProgramAnswer where
  | commands (p : List Request)
  | refused (line : Nat) (why : LineRefusal)
deriving DecidableEq, Repr

/-- A program, one command a line, from the line with number `k` on (R52, D34). -/
def assembleFrom (k : Nat) : List (List Char) → ProgramAnswer
  | [] => .commands []
  | l :: ls =>
    match assemble l with
    | .refused why => .refused k why
    | .command r =>
      match assembleFrom (k + 1) ls with
      | .commands p => .commands (r :: p)
      | .refused n why => .refused n why

/-- A program of R52. -/
def assembleProgram (lines : List (List Char)) : ProgramAnswer := assembleFrom 0 lines

end Sys2Proof.Machine.Asm
end

