-- ==== Sys2Proof/Safety.lean ====
section
/-! DEFINITION. What claims call a safe state and a safe run: the invariants of R16 to R18, the launch premises of R110,
the fairness assumption of R107 and what ends a run of R108. -/

namespace Sys2Proof.Machine

/-- R16, and R21 while DEC.type is unset: what DEC may hold. -/
def decWithin : Option VType → DecState → Prop
  | none, d => d = .acc 0 0
  | some T, .acc bits n => n.toNat < maxSize T ∧ bits.toNat < 2 ^ T.bits ∧ bits.toNat < 2 ^ (7 * n.toNat)
  | some T, .done v n => 1 ≤ n.toNat ∧ n.toNat ≤ maxSize T ∧ inDomain T v = true
  | some T, .failed _ n => n.toNat ≤ maxSize T

/-- The invariant of the machine: R16 for DEC, and R17, R18 and R48 for what stands beside an ADP of each form. -/
structure State.Inv (s : State) : Prop where
  /-- R16 -/
  dec : decWithin s.decType s.dec
  /-- nothing is outstanding or held while ADP is IDLE (R18) -/
  idle : s.adp = .idle → s.held = [] ∧ s.io = none ∧ s.ans = none ∧ s.byteReq = .none ∧
    s.writeReq = .none
  /-- in RD(T) DEC is the state of the read in progress (R17), of type T; a byte request is outstanding exactly as long as
  DEC is ACC (R79), a payload is kept exactly for FAILED(IO_ERROR, n), and the request counts as sent (log entry 8) -/
  reading : ∀ T, s.adp = .rd T → s.decType = some T ∧ s.writeReq = .none ∧ s.ans = none ∧ 1 ≤ s.srcSent ∧
    (s.byteReq = .none ↔ s.dec.terminal = true) ∧ (s.io.isSome = true ↔ ∃ n, s.dec = .failed .ioError n)
  /-- in WR(T, s) one write request offers s, 1 to M(T) bytes (R17, R27, R38), outstanding exactly as long as it is not answered
  (R75), and it counts as sent (log entry 8) -/
  writing : ∀ T offered, s.adp = .wr T offered → s.io = none ∧ s.byteReq = .none ∧
    (s.writeReq = .none ↔ s.ans.isSome = true) ∧ 1 ≤ s.snkSent ∧ 1 ≤ offered.length ∧ offered.length ≤ maxSize T
  /-- 0 ≤ SRC.cur ≤ len(S) (R19) -/
  cursor : ∀ src, s.src = some src → src.cursorOk = true

/-- Launch premises 2 to 4 of R110, with an explicit DEC value, type `T` and state `d`, as premise 4 allows. Premise 1, no fault
mark, is that `s` is a state at all: a faulted run has none (log entry 8). -/
structure State.LaunchFrom (s : State) (T : Option VType) (d : DecState) : Prop where
  /-- premise 2 -/
  idle : s.adp = .idle ∧ s.byteReq = .none ∧ s.writeReq = .none
  /-- premise 3 -/
  emptyChannels : s.reqCh = [] ∧ s.rspCh = [] ∧ s.held = []
  /-- premise 4 -/
  decState : s.decType = T ∧ s.dec = d

/-- Launch premises 2 to 4 of R110, with DEC as after reset (R21). -/
abbrev State.Launch (s : State) : Prop := s.LaunchFrom none (.acc 0 0)

/-- Premise 5 of R110: a source and a sink are attached. -/
def State.Attached (s : State) : Prop := s.src.isSome = true ∧ s.snk.isSome = true

/-- Every command the requester has, has issued, or has an answer for: its program, the request channel, the one in
flight, the responses held, on the channel and read (R48). -/
def State.commandCount (s : State) : Nat :=
  s.program.length + s.reqCh.length + (if s.adp.isIdle then 0 else 1) + s.held.length + s.rspCh.length +
    s.received.length

/-- The responses that have left the core, in the order they left (R32, R48). -/
def State.delivered (s : State) : List Response := s.received ++ s.rspCh

/-- The core is free to take a command: it owes nothing to an operation in flight. -/
def State.CoreFree (s : State) : Prop :=
  (∀ T, s.adp = .rd T → s.dec.terminal = false) ∧ ∀ T offered, s.adp = .wr T offered → s.ans = none

/-- The next move of `s` is the core's, and `ag` is left of the agenda after it. -/
def State.CoreMoves (s : State) (ag : List Turn) : Prop := (s.agenda = [] ∧ ag = []) ∨ s.agenda = .core :: ag

/-- `k` steps of the machine; a fault or refusal ends the run with no state. -/
def runSteps : Nat → State → Option State
  | 0, s => some s
  | k + 1, s =>
    match step s with
    | .next t => runSteps k t
    | _ => none

/-- The byte request outstanding in `s`, if there is one, is answered or withdrawn in `t`: none is outstanding there, or a
newer one (log entry 8). -/
def State.byteSettled (s t : State) : Prop := s.byteReq = .waiting → t.byteReq = .none ∨ t.srcSent ≠ s.srcSent

/-- The write request outstanding in `s`, if there is one, is answered or withdrawn in `t`. -/
def State.writeSettled (s t : State) : Prop := s.writeReq = .waiting → t.writeReq = .none ∨ t.snkSent ≠ s.snkSent

/-- An unending sequence of steps of the machine, with no fault and no refusal. -/
def IsRun (run : Nat → State) : Prop := ∀ i, step (run i) = .next (run (i + 1))

/-- The fairness assumption of R107: every outstanding source and sink request is eventually answered, or is withdrawn by ABORT
or reset. -/
def Fair (run : Nat → State) : Prop :=
  ∀ i, (∃ j, i ≤ j ∧ (run i).byteSettled (run j)) ∧ ∃ j, i ≤ j ∧ (run i).writeSettled (run j)

end Sys2Proof.Machine
end

