-- ==== Sys2Proof/Certificates/Slice0/Obligations.lean ====
section
/-! DEFINITION. The obligations: the rules of spec/ as statements about the machine. The section Stated holds what the
statements are written with, taken from the rules and not from the model's own datapath. Which agent moves next is the agenda, a choice of
the model (log entry 1); a statement about one step names the turn it is about. -/

open Sys2Proof Sys2Proof.Machine

namespace Sys2Proof.Stated

/-- The word `c` decodes to the command `mk r`, whatever the other fields of the request are (R49, R46). -/
def OwnWord (c : Byte) (mk : Request → Instr) : Prop := ∀ r : Request, r.cmd = c → decode r = .instr (mk r)

/-- With ADP IDLE the command completes with this one response at the end of the response channel, and changes nothing
else. -/
def AnswersOnly (i : Instr) (resp : Response) : Prop :=
  ∀ s : State, s.adp = .idle → exec i s = .next { s with rspCh := s.rspCh ++ [resp] }

/-- With ADP not IDLE the command is answered BUSY, held, and changes nothing else (R86). -/
def BusyInFlight (i : Instr) : Prop :=
  ∀ s : State, s.adp ≠ .idle → exec i s = .next { s with held := s.held ++ [Response.plain .busy] }

/-- The closed form of zz_enc (R58). -/
def zigzagOf (x : Int) : Nat := if 0 ≤ x then (2 * x).toNat else (-2 * x - 1).toNat

/-- The closed form of zz_dec (R58). -/
def unzigzagOf (u : Nat) : Int := if u % 2 = 0 then (u / 2 : Nat) else -((u + 1) / 2 : Nat)

/-- The unsigned form of operand_T(val) (R5, R46). -/
def formOf (T : VType) (val : Val) : Nat :=
  if T.signed then zigzagOf (val.setWidth T.bits).toInt else (val.setWidth T.bits).toNat

/-- The value of T whose unsigned form is U (R67). -/
def valueFrom (T : VType) (U : Nat) : Int := if T.signed then unzigzagOf U else U

/-- `k` is the least number of 7-bit groups, at least one, that holds u (R60). -/
def LeastGroups (u k : Nat) : Prop := 1 ≤ k ∧ u < 2 ^ (7 * k) ∧ (k = 1 ∨ 2 ^ (7 * (k - 1)) ≤ u)

/-- `s` is the minimal encoding of the unsigned form u: byte i carries bits 7i .. 7i+6, and bit 7 is set in every byte but
the last (R39, R42, R61). -/
def IsEncoding (u : Nat) (s : List Byte) : Prop :=
  LeastGroups u s.length ∧
    ∀ i b, s[i]? = some b → b.toNat % 128 = u / 2 ^ (7 * i) % 128 ∧ (b.getLsbD 7 = true ↔ i + 1 < s.length)

/-- The number that the payloads of a byte sequence make up, first byte least significant (R63). -/
def groupSum : List Byte → Nat
  | [] => 0
  | b :: s => b.toNat % 128 + 128 * groupSum s

/-- The conditions of R63 for SliceDecode_T(s) = Some(v, n). -/
def SliceReads (T : VType) (s : List Byte) (v : Int) (n : Nat) : Prop :=
  1 ≤ n ∧ n ≤ maxSize T ∧ n ≤ s.length ∧ (∀ i b, s[i]? = some b → i < n → (b.getLsbD 7 = true ↔ i + 1 < n)) ∧
    groupSum (s.take n) < 2 ^ T.bits ∧ v = valueFrom T (groupSum (s.take n))

/-- The response of DSTEP and DEOF for a new DEC.state (R71, R72). -/
def reportOf (T : VType) (d : DecState) (cons : Bool) : Response :=
  match d with
  | .acc _ n => { Response.plain .ok with rtag := .acc, rlen := n, rcons := cons }
  | .done v n => { Response.plain .ok with rtag := .done, rlen := n, rcons := cons, rval := extendResult T v }
  | .failed k n => { Response.plain .ok with rtag := .failed, rlen := n, rcons := cons, rkind := k.status }

/-- The state after a WRVAR that ended with response `resp` (R75). -/
def afterWrite (s : State) (resp : Response) (ag : List Turn) : State :=
  { s with
    agenda := ag, adp := .idle, io := none, ans := none, byteReq := .none, writeReq := .none
    rspCh := s.rspCh ++ resp :: s.held, held := [] }

/-- The request is a RDVAR or a WRVAR. -/
def IsAdapterCommand (r : Request) : Prop := ∃ T, decode r = .instr (.rdvar T) ∨ ∃ val, decode r = .instr (.wrvar T val)

/-- The byte request of a RDVAR is outstanding. -/
def ByteAwaited (s : State) : Prop := ∃ T, s.adp = .rd T ∧ s.byteReq = .waiting

/-- The write request of a WRVAR is outstanding. -/
def WriteAwaited (s : State) : Prop := ∃ T offered, s.adp = .wr T offered ∧ s.writeReq = .waiting

/-- The state after the outstanding byte request of a RDVAR is answered, with the source then `src`, DEC then `d` and the payload
`io`; the next request goes out only if DEC is still ACC (R79). -/
def afterAnswer (s : State) (src : Source) (d : DecState) (io : Option IoErr) (ag : List Turn) : State :=
  { s with
    agenda := ag, src := some src, dec := d, io := io
    byteReq := if d.terminal then .none else .waiting
    srcSent := if d.terminal then s.srcSent else s.srcSent + 1 }

/-- The next move is the reset input. -/
def ResetMoves (s : State) : Prop := ∃ ag, s.agenda = .reset :: ag

/-- The command at the head of the request channel decodes to `i`. -/
def NextCommand (s : State) (i : Instr) : Prop := ∃ r rest, s.reqCh = r :: rest ∧ decode r = .instr i

def ZzencAt (c : Byte) (w : Width) (mk : Val → Instr) : Prop :=
  OwnWord c (fun r => mk r.val) ∧ ∀ val, BusyInFlight (mk val) ∧
    AnswersOnly (mk val) { Response.plain .ok with rval := BitVec.ofNat 64 (zigzagOf (val.setWidth w.bits).toInt) }

def ZzdecAt (c : Byte) (w : Width) (mk : Val → Instr) : Prop :=
  OwnWord c (fun r => mk r.val) ∧ ∀ val, BusyInFlight (mk val) ∧
    AnswersOnly (mk val) { Response.plain .ok with rval := BitVec.ofInt 64 (unzigzagOf (val.setWidth w.bits).toNat) }

def VmaxszAt (c : Byte) (mk : Instr) (M : Nat) : Prop :=
  OwnWord c (fun _ => mk) ∧ BusyInFlight mk ∧ AnswersOnly mk { Response.plain .ok with rlen := BitVec.ofNat 4 M }

def VrspaceAt (c : Byte) (T : VType) (mk : Val → Instr) : Prop :=
  OwnWord c (fun r => mk r.val) ∧ ∀ val, BusyInFlight (mk val) ∧
    ∃ k, LeastGroups (formOf T val) k ∧ k ≤ maxSize T ∧ k = (encodeVar T (operand T val)).length ∧
      AnswersOnly (mk val) { Response.plain .ok with rlen := BitVec.ofNat 4 k }

def VencAt (c : Byte) (T : VType) (mk : Val → Instr) : Prop :=
  OwnWord c (fun r => mk r.val) ∧ ∀ val, BusyInFlight (mk val) ∧
    ∃ s, IsEncoding (formOf T val) s ∧ s.length ≤ maxSize T ∧
      AnswersOnly (mk val)
        { Response.plain .ok with rbytes := Lanes.ofList s, rlen := BitVec.ofNat 4 s.length }

def VdecAt (c : Byte) (T : VType) (mk : Lanes → BitVec 4 → Instr) : Prop :=
  OwnWord c (fun r => mk r.sb r.slen) ∧ ∀ sb slen, BusyInFlight (mk sb slen) ∧
    (∀ v n, SliceReads T (sb.toList.take (min slen.toNat 10)) v n →
      AnswersOnly (mk sb slen)
        { Response.plain .ok with rval := BitVec.ofInt 64 v, rlen := BitVec.ofNat 4 n }) ∧
    ((¬ ∃ v n, SliceReads T (sb.toList.take (min slen.toNat 10)) v n) →
      AnswersOnly (mk sb slen) (Response.plain .none))

def DinitAt (c : Byte) (T : VType) (mk : Instr) : Prop :=
  OwnWord c (fun _ => mk) ∧ BusyInFlight mk ∧
    ∀ s : State, s.adp = .idle →
      exec mk s = .next { s with
        decType := some T, dec := .acc 0 0
        rspCh := s.rspCh ++ [{ Response.plain .ok with rtag := .acc, rlen := 0 }] }

def WrvarAt (c : Byte) (T : VType) (mk : Val → Instr) : Prop :=
  OwnWord c (fun r => mk r.val) ∧ ∀ val, BusyInFlight (mk val) ∧
    ∃ offered, IsEncoding (formOf T val) offered ∧ offered.length ≤ maxSize T ∧
      ∀ s : State, s.adp = .idle →
        exec (mk val) s = .next { s with
          adp := .wr T offered, writeReq := .waiting, ans := none, snkSent := s.snkSent + 1 }

def RdvarAt (c : Byte) (T : VType) (mk : Instr) : Prop :=
  OwnWord c (fun _ => mk) ∧ BusyInFlight mk ∧
    ∀ s : State, s.adp = .idle →
      exec mk s = .next { s with
        decType := some T, dec := .acc 0 0, adp := .rd T, io := none, byteReq := .waiting, srcSent := s.srcSent + 1 }

/-- The turns of k source answers and the core's turn that ends the read (R107). -/
def readTurns (draw : SrcAnswer) (k : Nat) : List Turn := List.replicate k (.source 0 draw) ++ [.core]

/-- The state after a RDVAR.T on `s` that sent k byte requests, consumed n bytes of a slice-backed source and left DEC in `d` with
response `resp` (R80). -/
def afterRead (s : State) (T : VType) (S : List Byte) (cur k n : Nat) (d : DecState) (resp : Response)
    (ag : List Turn) : State :=
  { s with
    decType := some T, dec := d, adp := .idle, io := none, ans := none, byteReq := .none, writeReq := .none
    rspCh := s.rspCh ++ resp :: s.held, held := [], src := some (.slice S (cur + n)), srcSent := s.srcSent + k
    agenda := ag }

/-- An outcome with the requester's kind replaced. -/
def withBlocking (b : Bool) : Result → Result
  | .next s => .next { s with blocking := b }
  | .fault f => .fault f
  | .refused r => .refused r

end Sys2Proof.Stated

/-! ### Encodings and commands -/

/-- R44, R45, R49: decode after encode gives every command back with its operands, and a decoded command encodes to the
word it was decoded from. -/
def Obligations.DecodeInvertsEncode : Prop :=
  (∀ i : Instr, decode (encode i) = .instr i) ∧ ∀ r i, decode r = .instr i → (encode i).cmd = r.cmd

/-- R50: exactly the words the rule lists are illegal, 189 of them, and one that the core takes is answered
ILLEGAL_COMMAND, held if an adapter operation is in flight, with no other change. -/
def Obligations.IllegalWordsAnswered : Prop :=
  (∀ r : Request, (∃ why, decode r = .illegal why) ↔
    r.cmd.getLsbD 3 = true ∨ 12 ≤ r.cmd.toNat / 16 ∨
      (r.cmd.toNat / 16 ≤ 1 ∧ r.cmd.getLsbD 2 = false) ∨
      ((r.cmd.toNat / 16 = 7 ∨ r.cmd.toNat / 16 = 8 ∨ r.cmd.toNat / 16 = 11) ∧ r.cmd.toNat % 8 ≠ 0)) ∧
  ((List.range 256).filter fun c => (decode (.ofCmd (BitVec.ofNat 8 c))).toOption.isNone).length = 189 ∧
  ∀ (s : State) (ag : List Turn) r rest why, s.CoreMoves ag → s.CoreFree → s.reqCh = r :: rest →
    decode r = .illegal why →
    (s.adp = .idle → step s = .next { s with
      agenda := ag, reqCh := rest, rspCh := s.rspCh ++ [Response.plain .illegalCommand] }) ∧
    (s.adp ≠ .idle → step s = .next { s with
      agenda := ag, reqCh := rest, held := s.held ++ [Response.plain .illegalCommand] })

/-- R53: each line of the table of worked encodings assembles to the command word and fields given there. -/
def Obligations.WorkedEncodings : Prop :=
  Asm.assemble "venc.u32 300".toList = .command ⟨0x42, 0x000000000000012C, Lanes.zero, 0, 0⟩ ∧
  Asm.assemble "zzenc.i64 -150".toList = .command ⟨0x07, 0xFFFFFFFFFFFFFF6A, Lanes.zero, 0, 0⟩ ∧
  Asm.assemble "zzdec.i8 255".toList = .command ⟨0x14, 0x00000000000000FF, Lanes.zero, 0, 0⟩ ∧
  Asm.assemble "vdec.i8 [0x80, 0x02]".toList =
    .command ⟨0x54, 0, ⟨0x80, 0x02, 0, 0, 0, 0, 0, 0, 0, 0⟩, 2, 0⟩ ∧
  Asm.assemble "dstep 0x81".toList = .command ⟨0x70, 0, Lanes.zero, 0, 0x81⟩ ∧
  Asm.assemble "rdvar.u64".toList = .command ⟨0xA3, 0, Lanes.zero, 0, 0⟩ ∧
  Asm.assemble "abort".toList = .command ⟨0xB0, 0, Lanes.zero, 0, 0⟩

/-- Words written out from R49 decode to the commands they stand for, one of each family. -/
def Obligations.MapWordsDecode : Prop :=
  decode ⟨0b00000110, 7, Lanes.zero, 0, 0⟩ = .instr (.zzencI32 7) ∧
  decode ⟨0b00010100, 7, Lanes.zero, 0, 0⟩ = .instr (.zzdecI8 7) ∧
  decode ⟨0b00100011, 7, Lanes.zero, 0, 0⟩ = .instr .vmaxszU64 ∧
  decode ⟨0b00110101, 7, Lanes.zero, 0, 0⟩ = .instr (.vrspaceI16 7) ∧
  decode ⟨0b01000010, 7, Lanes.zero, 0, 0⟩ = .instr (.vencU32 7) ∧
  decode ⟨0b01010111, 7, Lanes.zero, 3, 0⟩ = .instr (.vdecI64 Lanes.zero 3) ∧
  decode ⟨0b01100001, 7, Lanes.zero, 0, 0⟩ = .instr .dinitU16 ∧
  decode ⟨0b01110000, 7, Lanes.zero, 0, 9⟩ = .instr (.dstep 9) ∧
  decode ⟨0b10000000, 7, Lanes.zero, 0, 9⟩ = .instr .deof ∧
  decode ⟨0b10010110, 7, Lanes.zero, 0, 9⟩ = .instr (.wrvarI32 7) ∧
  decode ⟨0b10100000, 7, Lanes.zero, 0, 9⟩ = .instr .rdvarU8 ∧
  decode ⟨0b10110000, 7, Lanes.zero, 0, 9⟩ = .instr .abort

/-- R32, R7: when the core moves, owes nothing to an operation in flight, and the oldest command on the request channel
decodes to i, the step is exec i on the state with that command taken (that what is owed comes first: log entry 5). -/
def Obligations.StepRunsTakenCommand : Prop :=
  ∀ (s : State) (ag : List Turn) r rest i, s.CoreMoves ag → s.CoreFree → s.reqCh = r :: rest →
    decode r = .instr i → step s = exec i { s with agenda := ag, reqCh := rest }

/-- R33, I9: when the core moves, owes nothing and has no command to take, it waits: only the turn is spent. R107: under the
fairness assumption every wait ends: at some later point of an unending run nothing is in flight, and every command issued is
answered; a run whose program is all issued ends (R108). In a run in which reset was asserted, of which R108 says nothing, the
commands that reset dropped count as done without a response (the model's choice, log entry 25). -/
def Obligations.CoreWaitsWithoutBound : Prop :=
  (∀ (s : State) (ag : List Turn), s.CoreMoves ag → s.CoreFree → s.reqCh = [] → step s = .next { s with agenda := ag }) ∧
    ∀ run : Nat → State, IsRun run → (run 0).Inv → Fair run → ∀ i, ∃ j, i ≤ j ∧
      (run j).adp = .idle ∧ (run j).reqCh = [] ∧ (run j).held = [] ∧ ((run i).program = [] → (run j).runEnded = true)

/-! ### Zigzag -/

/-- R55: zzenc.iW has its words, is BUSY in flight, and answers OK with rval = zext_64(zz_enc_W(x)) and nothing else; the
S = 0 words are illegal. -/
def Obligations.ZzencAnswersZigzag : Prop :=
  Stated.ZzencAt 0x04 .w8 Instr.zzencI8 ∧
  Stated.ZzencAt 0x05 .w16 Instr.zzencI16 ∧
  Stated.ZzencAt 0x06 .w32 Instr.zzencI32 ∧
  Stated.ZzencAt 0x07 .w64 Instr.zzencI64 ∧
  ∀ r : Request, r.cmd.toNat ≤ 3 → ∃ why, decode r = .illegal why

/-- R56: zzdec.iW has its words, is BUSY in flight, and answers OK with rval = sext_64(zz_dec_W(u)) and nothing else; the
S = 0 words are illegal. -/
def Obligations.ZzdecAnswersInverse : Prop :=
  Stated.ZzdecAt 0x14 .w8 Instr.zzdecI8 ∧
  Stated.ZzdecAt 0x15 .w16 Instr.zzdecI16 ∧
  Stated.ZzdecAt 0x16 .w32 Instr.zzdecI32 ∧
  Stated.ZzdecAt 0x17 .w64 Instr.zzdecI64 ∧
  ∀ r : Request, 16 ≤ r.cmd.toNat → r.cmd.toNat ≤ 19 → ∃ why, decode r = .illegal why

/-- R57: the two maps are inverse to each other at every width of the core. -/
def Obligations.ZigzagBijection : Prop :=
  ∀ w : Width, (∀ x : BitVec w.bits, zzDec (zzEnc x) = x) ∧ ∀ u : BitVec w.bits, zzEnc (zzDec u) = u

/-- R58: the bitwise maps have the closed forms. -/
def Obligations.ZigzagClosedForms : Prop :=
  ∀ w : Width, (∀ x : BitVec w.bits, (zzEnc x).toNat = Stated.zigzagOf x.toInt) ∧
    ∀ u : BitVec w.bits, (zzDec u).toInt = Stated.unzigzagOf u.toNat

/-! ### Core codec and slice decoder -/

/-- R59: vmaxsz.T has its words, is BUSY in flight, and answers OK with rlen = M(T) and nothing else. -/
def Obligations.VmaxszAnswersMaxSize : Prop :=
  Stated.VmaxszAt 0x20 .vmaxszU8 2 ∧
  Stated.VmaxszAt 0x21 .vmaxszU16 3 ∧
  Stated.VmaxszAt 0x22 .vmaxszU32 5 ∧
  Stated.VmaxszAt 0x23 .vmaxszU64 10 ∧
  Stated.VmaxszAt 0x24 .vmaxszI8 2 ∧
  Stated.VmaxszAt 0x25 .vmaxszI16 3 ∧
  Stated.VmaxszAt 0x26 .vmaxszI32 5 ∧
  Stated.VmaxszAt 0x27 .vmaxszI64 10

/-- R60: vrspace.T has its words, is BUSY in flight, and answers OK with the least number of groups, at most M(T), that
holds the unsigned form of its operand, and nothing else; the encoding of that operand has this length. -/
def Obligations.VrspaceAnswersLeastGroups : Prop :=
  Stated.VrspaceAt 0x30 .u8 Instr.vrspaceU8 ∧
  Stated.VrspaceAt 0x31 .u16 Instr.vrspaceU16 ∧
  Stated.VrspaceAt 0x32 .u32 Instr.vrspaceU32 ∧
  Stated.VrspaceAt 0x33 .u64 Instr.vrspaceU64 ∧
  Stated.VrspaceAt 0x34 .i8 Instr.vrspaceI8 ∧
  Stated.VrspaceAt 0x35 .i16 Instr.vrspaceI16 ∧
  Stated.VrspaceAt 0x36 .i32 Instr.vrspaceI32 ∧
  Stated.VrspaceAt 0x37 .i64 Instr.vrspaceI64

/-- R61: venc.T has its words, is BUSY in flight, and answers OK with the minimal encoding of the unsigned form of its
operand on the lanes, its length in rlen, and nothing else. -/
def Obligations.VencAnswersEncoding : Prop :=
  Stated.VencAt 0x40 .u8 Instr.vencU8 ∧
  Stated.VencAt 0x41 .u16 Instr.vencU16 ∧
  Stated.VencAt 0x42 .u32 Instr.vencU32 ∧
  Stated.VencAt 0x43 .u64 Instr.vencU64 ∧
  Stated.VencAt 0x44 .i8 Instr.vencI8 ∧
  Stated.VencAt 0x45 .i16 Instr.vencI16 ∧
  Stated.VencAt 0x46 .i32 Instr.vencI32 ∧
  Stated.VencAt 0x47 .i64 Instr.vencI64

/-- R62, R63: vdec.T has its words, is BUSY in flight, and answers OK with value and count exactly when the conditions of
R63 hold of the slice, else NONE, and changes nothing else. -/
def Obligations.VdecAnswersSliceDecode : Prop :=
  Stated.VdecAt 0x50 .u8 Instr.vdecU8 ∧
  Stated.VdecAt 0x51 .u16 Instr.vdecU16 ∧
  Stated.VdecAt 0x52 .u32 Instr.vdecU32 ∧
  Stated.VdecAt 0x53 .u64 Instr.vdecU64 ∧
  Stated.VdecAt 0x54 .i8 Instr.vdecI8 ∧
  Stated.VdecAt 0x55 .i16 Instr.vdecI16 ∧
  Stated.VdecAt 0x56 .i32 Instr.vdecI32 ∧
  Stated.VdecAt 0x57 .i64 Instr.vdecI64

/-- R64 item 1: decoding an encoding gives the value back, with required_space as the count. -/
def Obligations.EncodingRoundTrips : Prop :=
  ∀ (T : VType) (v : Int), inDomain T v = true →
    sliceDecode T (encodeVar T v) = some (v, BitVec.ofNat 4 (requiredSpace T v))

/-- R64 item 2 and the length law of R61: 1 to M(T) bytes, as many as required_space says. -/
def Obligations.EncodingSizeBound : Prop :=
  ∀ (T : VType) (v : Int), inDomain T v = true →
    (encodeVar T v).length = requiredSpace T v ∧ 1 ≤ requiredSpace T v ∧ requiredSpace T v ≤ maxSize T

/-- R64 item 3: no terminator within 1 .. M(T) bytes, no value. -/
def Obligations.TruncationRejected : Prop :=
  ∀ (T : VType) (s : List Byte), 1 ≤ s.length → s.length ≤ maxSize T → (∀ b ∈ s, b.getLsbD 7 = true) →
    sliceDecode T s = none

/-- R64 item 4: the encoding of the maximum of the unsigned domain decodes to it; with its last byte plus 1, or 0x7F, it
does not decode. -/
def Obligations.OverflowRejected : Prop :=
  ∀ T : VType, ∃ (front : List Byte) (last : Byte),
    encodeVar ⟨T.width, false⟩ (2 ^ T.bits - 1) = front ++ [last] ∧ front.length + 1 = maxSize T ∧
    sliceDecode T (front ++ [last]) =
      some (if T.signed then -(2 ^ (T.bits - 1)) else 2 ^ T.bits - 1, BitVec.ofNat 4 (maxSize T)) ∧
    sliceDecode T (front ++ [last + 1]) = none ∧ sliceDecode T (front ++ [0x7F]) = none

/-- R64 item 5, R41: a signed encoding is the unsigned encoding of the zigzag form at the same width. -/
def Obligations.SignSymmetry : Prop :=
  ∀ (w : Width) (v : Int), inDomain ⟨w, true⟩ v = true →
    encodeVar ⟨w, true⟩ v = encodeVar ⟨w, false⟩ (Stated.zigzagOf v)

/-- R65: bytes after a terminator change nothing; a slice that failed stays failed; one that ended in ACC may be completed. -/
def Obligations.TrailingBytesTolerated : Prop :=
  ∀ T : VType,
    (∀ s t v n, sliceDecode T s = some (v, n) → sliceDecode T (s ++ t) = some (v, n)) ∧
    (∀ s t k n, s.foldl (stepDec T) (.acc 0 0) = .failed k n → sliceDecode T s = none ∧ sliceDecode T (s ++ t) = none) ∧
    ∃ s t, sliceDecode T s = none ∧ (sliceDecode T (s ++ t)).isSome = true

/-- R66: every row of the table of edge cases. -/
def Obligations.EdgeCases : Prop :=
  (∀ w sg, encodeVar ⟨w, sg⟩ 0 = [0x00]) ∧
  encodeVar .u8 255 = [0xFF, 0x01] ∧ encodeVar .u16 65535 = [0xFF, 0xFF, 0x03] ∧
  encodeVar .u32 4294967295 = List.replicate 4 0xFF ++ [0x0F] ∧
  encodeVar .u64 18446744073709551615 = List.replicate 9 0xFF ++ [0x01] ∧
  sliceDecode .u8 [0xFF, 0x02] = none ∧ sliceDecode .u16 [0xFF, 0xFF, 0x04] = none ∧
  sliceDecode .u32 (List.replicate 4 0xFF ++ [0x10]) = none ∧
  sliceDecode .u64 (List.replicate 9 0xFF ++ [0x02]) = none ∧
  (∀ (T : VType) (s : List Byte) (b : Byte), s.length + 1 = maxSize T → b.getLsbD 7 = true →
    sliceDecode T (s.map (· ||| 0x80) ++ [b]) = none) ∧
  ∀ (T : VType) (L : Nat), 1 ≤ L → L ≤ maxSize T →
    sliceDecode T (List.replicate L 0x80) = none ∧ sliceDecode T (List.replicate L 0xFF) = none

/-- R42, tolerant input: an encoding padded with zero groups up to M(T) bytes decodes to the same value. -/
def Obligations.PaddedEncodingAccepted : Prop :=
  ∀ (T : VType) (v : Int) (front : List Byte) (last : Byte) (k : Nat), inDomain T v = true →
    encodeVar T v = front ++ [last] → front.length + k + 2 ≤ maxSize T →
    sliceDecode T (front ++ [last ||| 0x80] ++ List.replicate k 0x80 ++ [0x00]) =
      some (v, BitVec.ofNat 4 (front.length + k + 2))

/-! ### The decoder state machine -/

/-- R67: what Step_T does in ACC(acc, n) with n < M and acc < 2^(7n), in plain arithmetic, and that terminal states absorb. -/
def Obligations.StepFunction : Prop :=
  ∀ (T : VType) (b : Byte),
    (∀ (bits : Acc) (n : Count), n.toNat < maxSize T → bits.toNat < 2 ^ (7 * n.toNat) → bits.toNat < 2 ^ T.bits →
      let sum := bits.toNat + b.toNat % 128 * 2 ^ (7 * n.toNat)
      (n + 1).toNat = n.toNat + 1 ∧
      (2 ^ T.bits ≤ sum ↔ ∃ j, (b.toNat % 128).testBit j = true ∧ T.bits ≤ 7 * n.toNat + j) ∧
      (2 ^ T.bits ≤ sum → stepDec T (.acc bits n) b = .failed .invalidData (n + 1)) ∧
      (sum < 2 ^ T.bits → b.getLsbD 7 = false →
        stepDec T (.acc bits n) b = .done (Stated.valueFrom T sum) (n + 1)) ∧
      (sum < 2 ^ T.bits → b.getLsbD 7 = true → n.toNat + 1 = maxSize T →
        stepDec T (.acc bits n) b = .failed .invalidData (n + 1)) ∧
      (sum < 2 ^ T.bits → b.getLsbD 7 = true → n.toNat + 1 < maxSize T →
        ∃ bits' : Acc, bits'.toNat = sum ∧ stepDec T (.acc bits n) b = .acc bits' (n + 1))) ∧
    (∀ v n, stepDec T (.done v n) b = .done v n) ∧ ∀ k n, stepDec T (.failed k n) b = .failed k n

/-- R68: Eof_T. -/
def Obligations.EofFunction : Prop :=
  (∀ bits n, eofDec (.acc bits n) = .failed .unexpectedEof n) ∧ (∀ v n, eofDec (.done v n) = .done v n) ∧
    ∀ k n, eofDec (.failed k n) = .failed k n

/-- R70: dinit.T has its words, is BUSY in flight, and sets DEC to ACC(0, 0) of type T with response OK, tag ACC, count 0,
and changes nothing else. -/
def Obligations.DinitStartsDecode : Prop :=
  Stated.DinitAt 0x60 .u8 .dinitU8 ∧
  Stated.DinitAt 0x61 .u16 .dinitU16 ∧
  Stated.DinitAt 0x62 .u32 .dinitU32 ∧
  Stated.DinitAt 0x63 .u64 .dinitU64 ∧
  Stated.DinitAt 0x64 .i8 .dinitI8 ∧
  Stated.DinitAt 0x65 .i16 .dinitI16 ∧
  Stated.DinitAt 0x66 .i32 .dinitI32 ∧
  Stated.DinitAt 0x67 .i64 .dinitI64

/-- R71: dstep. -/
def Obligations.DstepStepsDec : Prop :=
  Stated.OwnWord 0x70 (fun r => .dstep r.b) ∧ ∀ b, Stated.BusyInFlight (.dstep b) ∧
    ∀ s : State, s.adp = .idle →
      (s.decType = none →
        exec (.dstep b) s = .next { s with rspCh := s.rspCh ++ [Response.plain .notInitialised] }) ∧
      ∀ T, s.decType = some T →
        exec (.dstep b) s = .next { s with
          dec := stepDec T s.dec b
          rspCh := s.rspCh ++ [Stated.reportOf T (stepDec T s.dec b) (!s.dec.terminal)] }

/-- R72: deof. -/
def Obligations.DeofEndsDec : Prop :=
  Stated.OwnWord 0x80 (fun _ => .deof) ∧ Stated.BusyInFlight .deof ∧
    ∀ s : State, s.adp = .idle →
      (s.decType = none →
        exec .deof s = .next { s with rspCh := s.rspCh ++ [Response.plain .notInitialised] }) ∧
      ∀ T, s.decType = some T →
        exec .deof s = .next { s with
          dec := eofDec s.dec
          rspCh := s.rspCh ++ [Stated.reportOf T (eofDec s.dec) false] }

/-- R73: terminal states absorb every input, DSTEP reports the byte as not consumed, and a step leaves a terminal state
only by DINIT, the start of a RDVAR, or reset. -/
def Obligations.TerminalStatesAbsorb : Prop :=
  (∀ (T : VType) (d : DecState) (b : Byte), d.terminal = true → stepDec T d b = d ∧ eofDec d = d) ∧
  (∀ (s : State) (T : VType) (b : Byte), s.adp = .idle → s.decType = some T → s.dec.terminal = true →
    ∃ resp : Response, resp.status = .ok ∧ resp.rcons = false ∧
      exec (.dstep b) s = .next { s with rspCh := s.rspCh ++ [resp] }) ∧
  ∀ s t : State, step s = .next t → s.dec.terminal = true → t.dec ≠ s.dec →
    Stated.ResetMoves s ∨
      (s.adp = .idle ∧ ∃ T, (Stated.NextCommand s (.dinit T) ∨ Stated.NextCommand s (.rdvar T)) ∧
        t.dec = .acc 0 0 ∧ t.decType = some T)

/-- R12: DEC.type is written only by DINIT.T and the start of RDVAR.T, to T, and only reset makes it unset. -/
def Obligations.DecTypeWrites : Prop :=
  ∀ s t : State, step s = .next t → t.decType ≠ s.decType →
    (Stated.ResetMoves s ∧ t.decType = none) ∨
      ∃ T, t.decType = some T ∧ (Stated.NextCommand s (.dinit T) ∨ Stated.NextCommand s (.rdvar T))

/-- R69: nothing outside the transition table changes DEC.state. -/
def Obligations.DecStateTable : Prop :=
  ∀ s t : State, step s = .next t → t.dec ≠ s.dec →
    (Stated.ResetMoves s ∧ t.dec = .acc 0 0 ∧ t.decType = none) ∨
    (s.adp = .idle ∧ ∃ T, (Stated.NextCommand s (.dinit T) ∨ Stated.NextCommand s (.rdvar T)) ∧
      t.dec = .acc 0 0 ∧ t.decType = some T) ∨
    (s.dec.terminal = false ∧
      ((s.adp = .idle ∧ ∃ T b, s.decType = some T ∧ Stated.NextCommand s (.dstep b) ∧ t.dec = stepDec T s.dec b) ∨
      (s.adp = .idle ∧ Stated.NextCommand s .deof ∧ t.dec = .failed .unexpectedEof s.dec.count) ∨
      ∃ T, s.adp = .rd T ∧
        ((∃ draw ag src, s.agenda = .source 0 draw :: ag ∧ s.src = some src ∧ s.byteReq = .waiting ∧
          ((∃ b, (src.answer draw).1 = .byte b ∧ t.dec = stepDec T s.dec b) ∨
          ((src.answer draw).1 = .eof ∧ t.dec = .failed .unexpectedEof s.dec.count) ∨
          ∃ e, (src.answer draw).1 = .ioErr e ∧ t.dec = .failed .ioError s.dec.count)) ∨
        (Stated.NextCommand s .abort ∧ t.dec = .failed .cancelled s.dec.count))))

/-! ### The adapters -/

/-- R75, the start of wrvar.T: its words, BUSY in flight, and otherwise ADP takes the minimal encoding and one write
request goes out, with no response yet and no other change (DEC among it) but the model's numbering of the requests (log
entry 8). -/
def Obligations.WrvarStartsWrite : Prop :=
  Stated.WrvarAt 0x90 .u8 Instr.wrvarU8 ∧
  Stated.WrvarAt 0x91 .u16 Instr.wrvarU16 ∧
  Stated.WrvarAt 0x92 .u32 Instr.wrvarU32 ∧
  Stated.WrvarAt 0x93 .u64 Instr.wrvarU64 ∧
  Stated.WrvarAt 0x94 .i8 Instr.wrvarI8 ∧
  Stated.WrvarAt 0x95 .i16 Instr.wrvarI16 ∧
  Stated.WrvarAt 0x96 .i32 Instr.wrvarI32 ∧
  Stated.WrvarAt 0x97 .i64 Instr.wrvarI64

/-- R75, R76, R27, R107: the sink's answer is one step, in which nothing but the sink, the request and the answer kept change, and
the core's next turn, one step more, ends the write. Ok appends all of it and answers OK with the length; IoErr(e) leaves the part
taken and answers IO_ERROR with e. The held responses follow. That the part taken comes with the turn and that the agenda orders
the moves are the model's choices (log entries 1, 4), and so is that the write ends before an ABORT that waits on the request
channel is taken (log entry 5, DEDUCED). -/
def Obligations.WrvarEndsWithSinkAnswer : Prop :=
  ∀ (s : State) (T : VType) offered data (a : SnkAnswer) (ag : List Turn), s.adp = .wr T offered →
    s.writeReq = .waiting → s.snk = some data → s.agenda = .sink 0 a :: .core :: ag →
    let kept : List Byte := match a with
      | .ok => offered
      | .ioErr _ taken => offered.take taken
    let answered : State := { s with
      agenda := .core :: ag, snk := some (data ++ kept), writeReq := .none, ans := some a }
    step s = .next answered ∧
      (a = .ok → step answered = .next
        (Stated.afterWrite answered { Response.plain .ok with rlen := BitVec.ofNat 4 offered.length } ag)) ∧
      ∀ e taken, a = .ioErr e taken → step answered = .next
        (Stated.afterWrite answered { Response.plain .ioError with rio := some e } ag)

/-- R78: rdvar.T has its words, is BUSY in flight, and starts with DEC = ACC(0, 0) of type T, ADP = RD(T) and one byte
request out; no response yet and no other change but the model's numbering of the requests (log entry 8). -/
def Obligations.RdvarStartsRead : Prop :=
  Stated.RdvarAt 0xA0 .u8 .rdvarU8 ∧
  Stated.RdvarAt 0xA1 .u16 .rdvarU16 ∧
  Stated.RdvarAt 0xA2 .u32 .rdvarU32 ∧
  Stated.RdvarAt 0xA3 .u64 .rdvarU64 ∧
  Stated.RdvarAt 0xA4 .i8 .rdvarI8 ∧
  Stated.RdvarAt 0xA5 .i16 .rdvarI16 ∧
  Stated.RdvarAt 0xA6 .i32 .rdvarI32 ∧
  Stated.RdvarAt 0xA7 .i64 .rdvarI64

/-- R79, R25, R107: one source answer is one step. An oracle's answer moves DEC as the loop says, and the next byte request goes
out exactly if DEC is still ACC, whatever waits on the request channel. The order of turns is the model's choice (log entry 1), and
that the source's step takes the answer into DEC is log entry 6. -/
def Obligations.RdvarTakesOracleAnswer : Prop :=
  ∀ (s : State) (T : VType) got (ag : List Turn), s.adp = .rd T → s.dec.terminal = false → s.byteReq = .waiting →
    s.src = some (.oracle got) →
    (∀ b, s.agenda = .source 0 (.byte b) :: ag →
      step s = .next (Stated.afterAnswer s (.oracle (got ++ [b])) (stepDec T s.dec b) none ag)) ∧
    (s.agenda = .source 0 .eof :: ag →
      step s = .next (Stated.afterAnswer s (.oracle got) (.failed .unexpectedEof s.dec.count) none ag)) ∧
    ∀ e, s.agenda = .source 0 (.ioErr e) :: ag →
      step s = .next (Stated.afterAnswer s (.oracle got) (.failed .ioError s.dec.count) (some e) ag)

/-- R80: when DEC is terminal the core's turn ends the read: ADP goes to IDLE, the RDVAR is answered as the table says and
the held responses follow. That it does so even if an ABORT waits on the request channel is the model's choice (log entry 5,
DEDUCED from R84). -/
def Obligations.RdvarEndsWhenTerminal : Prop :=
  ∀ (s : State) (T : VType) (ag : List Turn), s.adp = .rd T → s.CoreMoves ag →
    let ended (resp : Response) : Prop := step s = .next { s with
      agenda := ag, adp := .idle, io := none, ans := none, byteReq := .none, writeReq := .none
      rspCh := s.rspCh ++ resp :: s.held, held := [] }
    (∀ v n, s.dec = .done v n → ended { Response.plain .ok with rval := extendResult T v, rlen := n }) ∧
    (∀ n, s.dec = .failed .invalidData n → ended { Response.plain .invalidData with rlen := n }) ∧
    (∀ n, s.dec = .failed .unexpectedEof n → ended { Response.plain .unexpectedEof with rlen := n }) ∧
    ∀ n, s.dec = .failed .ioError n → ended { Response.plain .ioError with rlen := n, rio := s.io }

/-- R74, R26, R80, R107: a slice-backed RDVAR.T run to its end agrees with SliceDecode_T of the source's remaining bytes: the
same value and count when there is one, else INVALID_DATA or UNEXPECTED_EOF and rval 0; the cursor moves by exactly the
count reported. It takes one step to start, one for each answer and one to end. The schedule of turns is the model's choice (log
entry 1), that the source's step takes the answer is log entry 6, that the read ends before an ABORT that waits on the request
channel is taken is log entry 5 (DEDUCED), and that the source's bytes do not change meanwhile is log entry 24. -/
def Obligations.SliceBackedReadAgrees : Prop :=
  ∀ (T : VType) (S : List Byte) (cur : Nat) (draw : SrcAnswer) (s : State), s.adp = .idle →
    s.src = some (.slice S cur) →
    ∃ started, exec (.rdvar T) s = .next started ∧
      (∀ v n, sliceDecode T (S.drop cur) = some (v, n) → ∀ ag,
        runSteps (n.toNat + 1) { started with agenda := Stated.readTurns draw n.toNat ++ ag } =
          some (Stated.afterRead s T S cur n.toNat n.toNat (.done v n)
            { Response.plain .ok with rval := extendResult T v, rlen := n } ag)) ∧
      (sliceDecode T (S.drop cur) = none → ∃ k kind n, k ≤ maxSize T ∧
        (kind = FailKind.invalidData ∨ kind = FailKind.unexpectedEof) ∧ ∀ ag,
        runSteps (k + 1) { started with agenda := Stated.readTurns draw k ++ ag } =
          some (Stated.afterRead s T S cur k n.toNat (.failed kind n)
            { Response.plain kind.status with rlen := n } ag))

/-- R81: abort. With nothing in flight, OK and no other change; in RD(T), CANCELLED with the count, DEC becomes
FAILED(CANCELLED, n); in WR(T, s), CANCELLED, and an attached sink holds a prefix of s, a draw of the model (log entry 3), with no
sink attached nothing is kept (log entry 14); the held responses stand between CANCELLED and ABORT's OK. This is said of states in
which the core takes an ABORT (log entry 21 has the others). A byte that the source delivers before the core takes the ABORT is in
DEC and counts in n. A write that the sink has answered before the core takes the ABORT ends by that answer (log entry 5,
DEDUCED). -/
def Obligations.AbortCancels : Prop :=
  Stated.OwnWord 0xB0 (fun _ => .abort) ∧ ∀ s : State,
    (∀ T b got ag r rest, s.adp = .rd T → s.dec.terminal = false → s.byteReq = .waiting →
      s.src = some (.oracle got) → s.agenda = .source 0 (.byte b) :: .core :: ag → s.reqCh = r :: rest →
      decode r = .instr .abort → (stepDec T s.dec b).terminal = false →
      runSteps 2 s = some { s with
        agenda := ag, reqCh := rest, src := some (.oracle (got ++ [b])), srcSent := s.srcSent + 1
        dec := .failed .cancelled (stepDec T s.dec b).count, adp := .idle, io := none, ans := none, byteReq := .none
        writeReq := .none, held := []
        rspCh := s.rspCh ++ { Response.plain .cancelled with rlen := (stepDec T s.dec b).count } :: s.held ++
          [Response.plain .ok] }) ∧
    (∀ T offered ag, s.adp = .wr T offered → s.CoreMoves ag → Stated.NextCommand s .abort →
      (s.ans = some .ok → step s = .next
        (Stated.afterWrite s { Response.plain .ok with rlen := BitVec.ofNat 4 offered.length } ag)) ∧
      ∀ e taken, s.ans = some (.ioErr e taken) → step s = .next
        (Stated.afterWrite s { Response.plain .ioError with rio := some e } ag)) ∧
    (s.adp = .idle → exec .abort s = .next { s with rspCh := s.rspCh ++ [Response.plain .ok] }) ∧
    (∀ T, s.adp = .rd T → s.CoreFree → exec .abort s = .next { s with
      dec := .failed .cancelled s.dec.count, adp := .idle, io := none, ans := none, byteReq := .none, writeReq := .none
      rspCh := s.rspCh ++ { Response.plain .cancelled with rlen := s.dec.count } :: s.held ++ [Response.plain .ok]
      held := [] }) ∧
    ∀ T offered, s.adp = .wr T offered → s.writeReq = .waiting →
      ∃ p, p <+: offered ∧ exec .abort s = .next { s with
        adp := .idle, io := none, ans := none, byteReq := .none, writeReq := .none, snk := s.snk.map (· ++ p)
        rspCh := s.rspCh ++ Response.plain .cancelled :: s.held ++ [Response.plain .ok], held := []
        draws := s.draws + 1 }

/-! ### Errors -/

/-- R86: every legal command but ABORT, taken while ADP is RD or WR, is answered BUSY, held, and changes nothing else. -/
def Obligations.BusyWhileInFlight : Prop := ∀ i : Instr, i ≠ .abort → Stated.BusyInFlight i

/-- R83: the status codes, and the tag codes of R11. -/
def Obligations.StatusCodes : Prop :=
  Status.ok.code = 0x0 ∧ Status.none.code = 0x1 ∧ Status.invalidData.code = 0x2 ∧ Status.unexpectedEof.code = 0x3 ∧
  Status.ioError.code = 0x4 ∧ Status.cancelled.code = 0x5 ∧ Status.illegalCommand.code = 0x6 ∧
  Status.busy.code = 0x7 ∧ Status.notInitialised.code = 0x8 ∧
  Tag.acc.code = 0 ∧ Tag.done.code = 1 ∧ Tag.failed.code = 2

/-- R90, R94: no command stops the machine: exec answers a next state for every command in every state. -/
def Obligations.EveryCommandCompletes : Prop := ∀ (i : Instr) (s : State), ∃ t, exec i s = .next t

/-- R94: rval is 0 in every response with a status but OK that a step makes. -/
def Obligations.NoValueWithoutOk : Prop :=
  ∀ s t : State, step s = .next t →
    ∀ resp ∈ t.rspCh ++ t.held ++ t.received, resp ∉ s.rspCh ++ s.held ++ s.received → resp.status ≠ .ok →
      resp.rval = 0

/-! ### The whole machine -/

/-- R20: the zigzag and codec commands change nothing but the response channel or the held responses, in flight or not. -/
def Obligations.CodecCommandsHaveNoState : Prop :=
  ∀ (w : Width) (T : VType) (val : Val) (sb : Lanes) (slen : BitVec 4) (i : Instr) (s t : State),
    i ∈ [.zzenc w val, .zzdec w val, .vmaxsz T, .vrspace T val, .venc T val, .vdec T sb slen] →
    exec i s = .next t → t = { s with rspCh := t.rspCh, held := t.held }

/-- R46: val[63:W] is ignored. -/
def Obligations.UpperOperandBitsIgnored : Prop :=
  ∀ (T : VType) (val val' : Val), val.setWidth T.bits = val'.setWidth T.bits → ∀ s : State,
    exec (.zzenc T.width val) s = exec (.zzenc T.width val') s ∧
    exec (.zzdec T.width val) s = exec (.zzdec T.width val') s ∧
    exec (.vrspace T val) s = exec (.vrspace T val') s ∧
    exec (.venc T val) s = exec (.venc T val') s ∧ exec (.wrvar T val) s = exec (.wrvar T val') s

/-- The invariant holds after reset (R16 to R19, R21). Its clause on the source's cursor (R19) holds because State.reset has no
source attached, a choice of the model (log entry 10). -/
def Obligations.InvariantAtReset : Prop := State.reset.Inv

/-- R16 to R19: every step keeps the invariant, from every state that meets it. Its clauses on what has been sent are of the
model's own numbering (log entry 8). -/
def Obligations.InvariantKept : Prop := ∀ s t : State, s.Inv → step s = .next t → t.Inv

/-- R48: one response for each command: every step but reset keeps the number of commands that wait, are in flight or are
answered. -/
def Obligations.OneResponsePerCommand : Prop :=
  ∀ s t : State, step s = .next t → ¬ Stated.ResetMoves s → t.commandCount = s.commandCount

/-- R48, R32: responses leave in command order. While an operation is in flight nothing leaves and what is made is held;
when it ends, its response leaves first and the held ones follow; nothing delivered is changed. -/
def Obligations.HeldResponsesFollow : Prop :=
  ∀ s t : State, step s = .next t → ¬ Stated.ResetMoves s →
    (s.adp = .idle → t.held = s.held ∧ ∃ new, t.delivered = s.delivered ++ new) ∧
    (s.adp ≠ .idle → t.adp ≠ .idle → t.delivered = s.delivered ∧ ∃ new, t.held = s.held ++ new) ∧
    (s.adp ≠ .idle → t.adp = .idle → t.held = [] ∧ ∃ own new, t.delivered = s.delivered ++ own :: s.held ++ new)

/-- R97, R22, R109: a step faults exactly for a breach that R97 names: an answer to a request that was sent and is no longer
outstanding, that is a second answer or an answer to a withdrawn request, also while a newer request is outstanding, or another
reader consumes from the attached source while a RDVAR is in flight. It is refused exactly for a move that no rule covers, the
model's choices of log entries 8 and 9: an answer to a request that was never sent, and attaching in flight or with a cursor past
the end. That an answer names its request by its age is log entry 8. -/
def Obligations.FaultsOnlyForBreaches : Prop :=
  ∀ s : State,
    ((∃ f, step s = .fault f) ↔
      (∃ age draw ag, s.agenda = .source age draw :: ag ∧ s.src ≠ none ∧ age < s.srcSent ∧
        ¬ (age = 0 ∧ Stated.ByteAwaited s)) ∨
      (∃ age draw ag, s.agenda = .sink age draw :: ag ∧ s.snk ≠ none ∧ age < s.snkSent ∧
        ¬ (age = 0 ∧ Stated.WriteAwaited s)) ∨
      ∃ ag T, s.agenda = .foreignRead :: ag ∧ s.src ≠ none ∧ s.adp = .rd T) ∧
    ((∃ r, step s = .refused r) ↔
      (∃ age draw ag, s.agenda = .source age draw :: ag ∧ s.src ≠ none ∧ s.srcSent ≤ age ∧
        ¬ (age = 0 ∧ Stated.ByteAwaited s)) ∨
      (∃ age draw ag, s.agenda = .sink age draw :: ag ∧ s.snk ≠ none ∧ s.snkSent ≤ age ∧
        ¬ (age = 0 ∧ Stated.WriteAwaited s)) ∨
      (∃ src ag, s.agenda = .attachSource src :: ag ∧ (s.adp ≠ .idle ∨ src.cursorOk = false)) ∨
      ∃ data ag, s.agenda = .attachSink data :: ag ∧ s.adp ≠ .idle)

/-- R102, R33: with no source attached a source's turn changes nothing and a RDVAR goes on waiting, and the same for a sink and a
WRVAR (the model's choice for the sink, log entry 14). Another reader's turn with no source attached, or an oracle, changes
nothing, and with no RDVAR in flight it moves the cursor of a slice-backed source by one byte, at the end by none (the model's
choices, log entry 13). -/
def Obligations.AbsentAgentsAndOtherReaders : Prop :=
  ∀ (s : State) (ag : List Turn),
    (∀ age draw, s.agenda = .source age draw :: ag → s.src = none → step s = .next { s with agenda := ag }) ∧
    (∀ age draw, s.agenda = .sink age draw :: ag → s.snk = none → step s = .next { s with agenda := ag }) ∧
    (s.agenda = .foreignRead :: ag → s.src = none → step s = .next { s with agenda := ag }) ∧
    (s.agenda = .foreignRead :: ag → (∀ T, s.adp ≠ .rd T) →
      (∀ got, s.src = some (.oracle got) → step s = .next { s with agenda := ag }) ∧
      ∀ S cur, s.src = some (.slice S cur) →
        (cur < S.length → step s = .next { s with agenda := ag, src := some (.slice S (cur + 1)) }) ∧
        (S.length ≤ cur → step s = .next { s with agenda := ag }))

/-- R27, R81, R101: but for the attaching of another sink, a step leaves SNK.data or appends to it a part of what the
WRVAR in flight offers, from its first byte on. -/
def Obligations.SinkGrowsByOfferedBytes : Prop :=
  ∀ (s t : State) data, step s = .next t → s.snk = some data →
    (∃ data' ag, s.agenda = .attachSink data' :: ag) ∨ ∃ p, p <+: s.adp.offered ∧ t.snk = some (data ++ p)

/-- R25, R79, R101: but for the attaching of another source and for other readers, a step moves the source only by an
answer to the one outstanding byte request. -/
def Obligations.SourceMovesOnlyWhenAsked : Prop :=
  ∀ s t : State, step s = .next t → t.src ≠ s.src →
    (∃ src ag, s.agenda = .attachSource src :: ag) ∨ (∃ ag, s.agenda = .foreignRead :: ag) ∨
    ∃ T draw ag src, s.agenda = .source 0 draw :: ag ∧ s.adp = .rd T ∧ s.byteReq = .waiting ∧ s.src = some src ∧
      t.src = some (src.answer draw).2 ∧ t.dec = answerDec T s.dec (src.answer draw).1

/-- R26, R79: how a slice-backed source answers the byte request of a RDVAR, the answer taken in the same step (R107, log entry
6): the byte at the cursor steps DEC and moves the cursor by one; at the end Eof ends the decode and the cursor stays. -/
def Obligations.SliceBackedSourceAnswers : Prop :=
  ∀ (s : State) T S cur draw ag, s.agenda = .source 0 draw :: ag → s.src = some (.slice S cur) → s.adp = .rd T →
    s.byteReq = .waiting →
    (∀ h : cur < S.length,
      step s = .next (Stated.afterAnswer s (.slice S (cur + 1)) (stepDec T s.dec S[cur]) none ag)) ∧
    (S.length ≤ cur → step s = .next (Stated.afterAnswer s (.slice S cur) (eofDec s.dec) none ag))

/-- R82: a blocking requester issues nothing while an adapter operation is in flight, nor, by the model's choice (log entry 12),
while a RDVAR or WRVAR of its own waits on the request channel; otherwise, and whenever it is a suspending one, it issues its
next command, whichever that is. With no command left the turn passes. -/
def Obligations.BlockingRequesterWaits : Prop :=
  ∀ (s : State) (ag : List Turn), s.agenda = .issue :: ag →
    (s.program = [] → step s = .next { s with agenda := ag }) ∧
    ∀ r rest, s.program = r :: rest →
      let issued : State := { s with agenda := ag, program := rest, reqCh := s.reqCh ++ [r] }
      (s.blocking = true → (s.adp ≠ .idle ∨ ∃ q ∈ s.reqCh, Stated.IsAdapterCommand q) →
        step s = .next { s with agenda := ag }) ∧
      (s.blocking = true → s.adp = .idle → (∀ q ∈ s.reqCh, ¬ Stated.IsAdapterCommand q) → step s = .next issued) ∧
      (s.blocking = false → step s = .next issued)

/-- R82: nothing but the issuing of commands depends on the kind of the requester: every command, and every step whose turn is
not the requester's issuing, has the same outcome for both kinds. The core's moves on source and sink answers are among them. -/
def Obligations.RequesterKindUnseen : Prop :=
  ∀ (s : State) (b : Bool),
    (∀ i : Instr, exec i { s with blocking := b } = Stated.withBlocking b (exec i s)) ∧
    ((∀ ag, s.agenda ≠ .issue :: ag) → step { s with blocking := b } = Stated.withBlocking b (step s))

/-- R7, R18: the requester reads the oldest response of the channel, one a turn (the model's choice, log entry 22). -/
def Obligations.OldestResponseRead : Prop :=
  ∀ (s : State) (ag : List Turn) r rest, s.agenda = .readResponse :: ag → s.rspCh = r :: rest →
    step s = .next { s with agenda := ag, rspCh := rest, received := s.received ++ [r] }

/-- R109, I14: attaching a source or sink while an adapter operation is in flight has no move, which the model answers with a
refusal (its choice, log entry 9); while IDLE it replaces the source or sink. -/
def Obligations.AttachOnlyWhileIdle : Prop :=
  ∀ (s : State) (ag : List Turn),
    (∀ data, s.agenda = .attachSink data :: ag →
      (s.adp = .idle → step s = .next { s with agenda := ag, snk := some data }) ∧
      (s.adp ≠ .idle → step s = .refused .attachInFlight)) ∧
    ∀ src, s.agenda = .attachSource src :: ag →
      (s.adp = .idle → src.cursorOk = true →
        step s = .next { s with agenda := ag, src := some src }) ∧
      (s.adp = .idle → src.cursorOk = false → step s = .refused .attachBadCursor) ∧
      (s.adp ≠ .idle → step s = .refused .attachInFlight)

/-! ### Reset and the assembler -/

/-- R21: the reset value of every piece of core state. -/
def Obligations.ResetValues : Prop :=
  State.reset.dec = .acc 0 0 ∧ State.reset.decType = none ∧ State.reset.adp = .idle ∧ State.reset.reqCh = [] ∧
    State.reset.rspCh = [] ∧ State.reset.held = [] ∧ State.reset.byteReq = .none ∧ State.reset.writeReq = .none

/-- R100, R101: the reset input puts the core to its reset values and answers nothing; the source stays as it is; the sink
gains at most a part of the withdrawn write, from its first byte on (a draw of the model, log entry 3). That the requester's
program and what it has read (log entry 22) stay is the model's choice (log entry 10). -/
def Obligations.ResetDropsEverything : Prop :=
  ∀ (s : State) (ag : List Turn), s.agenda = .reset :: ag →
    ∃ (t : State) (p : List Byte), step s = .next t ∧ p <+: s.adp.offered ∧
      t.dec = .acc 0 0 ∧ t.decType = none ∧ t.adp = .idle ∧ t.reqCh = [] ∧ t.rspCh = [] ∧ t.held = [] ∧
      t.byteReq = .none ∧ t.writeReq = .none ∧ t.src = s.src ∧ t.snk = s.snk.map (· ++ p) ∧
      t.program = s.program ∧ t.received = s.received ∧ t.agenda = ag

/-- R110: the state right after reset meets the launch premises 2 to 4 (premise 1, no_fault, holds of every state, log entry 8),
and after the host has attached a source and a sink it meets premise 5 as well. That nothing else is attached or scheduled at
reset is the model's choice (log entry 10). -/
def Obligations.ResetMeetsLaunchPremises : Prop :=
  State.reset.Launch ∧
    ∀ (src : Source) (data : List Byte), src.cursorOk = true →
      ∃ t, runSteps 2 { State.reset with agenda := [.attachSource src, .attachSink data] } = some t ∧
        t.Launch ∧ t.Attached ∧ t.src = some src ∧ t.snk = some data

/-- R52: what the assembler emits decodes to a well-formed command that encodes to it again. -/
def Obligations.AssembledCommandsWellFormed : Prop :=
  ∀ (line : List Char) (r : Request), Asm.assemble line = .command r →
    ∃ i, decode r = .instr i ∧ encode i = r ∧ i.wf = true
end

