-- ==== Sys2Proof/Laws/State.lean ====
section
/-! SUPPORT. What each update of the state does to each field, so that no proof unfolds a record update. -/

namespace Sys2Proof.Machine

/-! ### State.respond -/

@[simp] theorem State.respond_decType (s : State) (r : Response) : (s.respond r).decType = s.decType := rfl
@[simp] theorem State.respond_dec (s : State) (r : Response) : (s.respond r).dec = s.dec := rfl
@[simp] theorem State.respond_adp (s : State) (r : Response) : (s.respond r).adp = s.adp := rfl
@[simp] theorem State.respond_io (s : State) (r : Response) : (s.respond r).io = s.io := rfl
@[simp] theorem State.respond_reqCh (s : State) (r : Response) : (s.respond r).reqCh = s.reqCh := rfl
@[simp] theorem State.respond_rspCh (s : State) (r : Response) : (s.respond r).rspCh = if s.adp.isIdle then s.rspCh ++ [r] else s.rspCh := rfl
@[simp] theorem State.respond_held (s : State) (r : Response) : (s.respond r).held = if s.adp.isIdle then s.held else s.held ++ [r] := rfl
@[simp] theorem State.respond_byteReq (s : State) (r : Response) : (s.respond r).byteReq = s.byteReq := rfl
@[simp] theorem State.respond_writeReq (s : State) (r : Response) : (s.respond r).writeReq = s.writeReq := rfl
@[simp] theorem State.respond_ans (s : State) (r : Response) : (s.respond r).ans = s.ans := rfl
@[simp] theorem State.respond_src (s : State) (r : Response) : (s.respond r).src = s.src := rfl
@[simp] theorem State.respond_snk (s : State) (r : Response) : (s.respond r).snk = s.snk := rfl
@[simp] theorem State.respond_program (s : State) (r : Response) : (s.respond r).program = s.program := rfl
@[simp] theorem State.respond_blocking (s : State) (r : Response) : (s.respond r).blocking = s.blocking := rfl
@[simp] theorem State.respond_received (s : State) (r : Response) : (s.respond r).received = s.received := rfl
@[simp] theorem State.respond_srcSent (s : State) (r : Response) : (s.respond r).srcSent = s.srcSent := rfl
@[simp] theorem State.respond_snkSent (s : State) (r : Response) : (s.respond r).snkSent = s.snkSent := rfl
@[simp] theorem State.respond_agenda (s : State) (r : Response) : (s.respond r).agenda = s.agenda := rfl
@[simp] theorem State.respond_draws (s : State) (r : Response) : (s.respond r).draws = s.draws := rfl

/-! ### State.reject -/

@[simp] theorem State.reject_decType (s : State) (st : Status) : (s.reject st).decType = s.decType := rfl
@[simp] theorem State.reject_dec (s : State) (st : Status) : (s.reject st).dec = s.dec := rfl
@[simp] theorem State.reject_adp (s : State) (st : Status) : (s.reject st).adp = s.adp := rfl
@[simp] theorem State.reject_io (s : State) (st : Status) : (s.reject st).io = s.io := rfl
@[simp] theorem State.reject_reqCh (s : State) (st : Status) : (s.reject st).reqCh = s.reqCh := rfl
@[simp] theorem State.reject_rspCh (s : State) (st : Status) : (s.reject st).rspCh = if s.adp.isIdle then s.rspCh ++ [.plain st] else s.rspCh := rfl
@[simp] theorem State.reject_held (s : State) (st : Status) : (s.reject st).held = if s.adp.isIdle then s.held else s.held ++ [.plain st] := rfl
@[simp] theorem State.reject_byteReq (s : State) (st : Status) : (s.reject st).byteReq = s.byteReq := rfl
@[simp] theorem State.reject_writeReq (s : State) (st : Status) : (s.reject st).writeReq = s.writeReq := rfl
@[simp] theorem State.reject_ans (s : State) (st : Status) : (s.reject st).ans = s.ans := rfl
@[simp] theorem State.reject_src (s : State) (st : Status) : (s.reject st).src = s.src := rfl
@[simp] theorem State.reject_snk (s : State) (st : Status) : (s.reject st).snk = s.snk := rfl
@[simp] theorem State.reject_program (s : State) (st : Status) : (s.reject st).program = s.program := rfl
@[simp] theorem State.reject_blocking (s : State) (st : Status) : (s.reject st).blocking = s.blocking := rfl
@[simp] theorem State.reject_received (s : State) (st : Status) : (s.reject st).received = s.received := rfl
@[simp] theorem State.reject_srcSent (s : State) (st : Status) : (s.reject st).srcSent = s.srcSent := rfl
@[simp] theorem State.reject_snkSent (s : State) (st : Status) : (s.reject st).snkSent = s.snkSent := rfl
@[simp] theorem State.reject_agenda (s : State) (st : Status) : (s.reject st).agenda = s.agenda := rfl
@[simp] theorem State.reject_draws (s : State) (st : Status) : (s.reject st).draws = s.draws := rfl

/-! ### State.complete -/

@[simp] theorem State.complete_decType (s : State) (r : Response) : (s.complete r).decType = s.decType := rfl
@[simp] theorem State.complete_dec (s : State) (r : Response) : (s.complete r).dec = s.dec := rfl
@[simp] theorem State.complete_adp (s : State) (r : Response) : (s.complete r).adp = .idle := rfl
@[simp] theorem State.complete_io (s : State) (r : Response) : (s.complete r).io = none := rfl
@[simp] theorem State.complete_reqCh (s : State) (r : Response) : (s.complete r).reqCh = s.reqCh := rfl
@[simp] theorem State.complete_rspCh (s : State) (r : Response) : (s.complete r).rspCh = s.rspCh ++ r :: s.held := rfl
@[simp] theorem State.complete_held (s : State) (r : Response) : (s.complete r).held = [] := rfl
@[simp] theorem State.complete_byteReq (s : State) (r : Response) : (s.complete r).byteReq = .none := rfl
@[simp] theorem State.complete_writeReq (s : State) (r : Response) : (s.complete r).writeReq = .none := rfl
@[simp] theorem State.complete_ans (s : State) (r : Response) : (s.complete r).ans = none := rfl
@[simp] theorem State.complete_src (s : State) (r : Response) : (s.complete r).src = s.src := rfl
@[simp] theorem State.complete_snk (s : State) (r : Response) : (s.complete r).snk = s.snk := rfl
@[simp] theorem State.complete_program (s : State) (r : Response) : (s.complete r).program = s.program := rfl
@[simp] theorem State.complete_blocking (s : State) (r : Response) : (s.complete r).blocking = s.blocking := rfl
@[simp] theorem State.complete_received (s : State) (r : Response) : (s.complete r).received = s.received := rfl
@[simp] theorem State.complete_srcSent (s : State) (r : Response) : (s.complete r).srcSent = s.srcSent := rfl
@[simp] theorem State.complete_snkSent (s : State) (r : Response) : (s.complete r).snkSent = s.snkSent := rfl
@[simp] theorem State.complete_agenda (s : State) (r : Response) : (s.complete r).agenda = s.agenda := rfl
@[simp] theorem State.complete_draws (s : State) (r : Response) : (s.complete r).draws = s.draws := rfl

/-! ### State.advanceRead -/

@[simp] theorem State.advanceRead_decType (s : State) (T : VType) (a : SrcAnswer) : (s.advanceRead T a).decType = s.decType := rfl
@[simp] theorem State.advanceRead_dec (s : State) (T : VType) (a : SrcAnswer) : (s.advanceRead T a).dec = answerDec T s.dec a := rfl
@[simp] theorem State.advanceRead_adp (s : State) (T : VType) (a : SrcAnswer) : (s.advanceRead T a).adp = s.adp := rfl
@[simp] theorem State.advanceRead_io (s : State) (T : VType) (a : SrcAnswer) : (s.advanceRead T a).io = answerIo a := rfl
@[simp] theorem State.advanceRead_reqCh (s : State) (T : VType) (a : SrcAnswer) : (s.advanceRead T a).reqCh = s.reqCh := rfl
@[simp] theorem State.advanceRead_rspCh (s : State) (T : VType) (a : SrcAnswer) : (s.advanceRead T a).rspCh = s.rspCh := rfl
@[simp] theorem State.advanceRead_held (s : State) (T : VType) (a : SrcAnswer) : (s.advanceRead T a).held = s.held := rfl
@[simp] theorem State.advanceRead_byteReq (s : State) (T : VType) (a : SrcAnswer) : (s.advanceRead T a).byteReq = if (answerDec T s.dec a).terminal then .none else .waiting := rfl
@[simp] theorem State.advanceRead_writeReq (s : State) (T : VType) (a : SrcAnswer) : (s.advanceRead T a).writeReq = s.writeReq := rfl
@[simp] theorem State.advanceRead_ans (s : State) (T : VType) (a : SrcAnswer) : (s.advanceRead T a).ans = s.ans := rfl
@[simp] theorem State.advanceRead_src (s : State) (T : VType) (a : SrcAnswer) : (s.advanceRead T a).src = s.src := rfl
@[simp] theorem State.advanceRead_snk (s : State) (T : VType) (a : SrcAnswer) : (s.advanceRead T a).snk = s.snk := rfl
@[simp] theorem State.advanceRead_program (s : State) (T : VType) (a : SrcAnswer) : (s.advanceRead T a).program = s.program := rfl
@[simp] theorem State.advanceRead_blocking (s : State) (T : VType) (a : SrcAnswer) : (s.advanceRead T a).blocking = s.blocking := rfl
@[simp] theorem State.advanceRead_received (s : State) (T : VType) (a : SrcAnswer) : (s.advanceRead T a).received = s.received := rfl
@[simp] theorem State.advanceRead_srcSent (s : State) (T : VType) (a : SrcAnswer) : (s.advanceRead T a).srcSent = if (answerDec T s.dec a).terminal then s.srcSent else s.srcSent + 1 := rfl
@[simp] theorem State.advanceRead_snkSent (s : State) (T : VType) (a : SrcAnswer) : (s.advanceRead T a).snkSent = s.snkSent := rfl
@[simp] theorem State.advanceRead_agenda (s : State) (T : VType) (a : SrcAnswer) : (s.advanceRead T a).agenda = s.agenda := rfl
@[simp] theorem State.advanceRead_draws (s : State) (T : VType) (a : SrcAnswer) : (s.advanceRead T a).draws = s.draws := rfl

/-! ### State.advanceWrite -/

@[simp] theorem State.advanceWrite_decType (s : State) (a : SnkAnswer) : (s.advanceWrite a).decType = s.decType := rfl
@[simp] theorem State.advanceWrite_dec (s : State) (a : SnkAnswer) : (s.advanceWrite a).dec = s.dec := rfl
@[simp] theorem State.advanceWrite_adp (s : State) (a : SnkAnswer) : (s.advanceWrite a).adp = s.adp := rfl
@[simp] theorem State.advanceWrite_io (s : State) (a : SnkAnswer) : (s.advanceWrite a).io = s.io := rfl
@[simp] theorem State.advanceWrite_reqCh (s : State) (a : SnkAnswer) : (s.advanceWrite a).reqCh = s.reqCh := rfl
@[simp] theorem State.advanceWrite_rspCh (s : State) (a : SnkAnswer) : (s.advanceWrite a).rspCh = s.rspCh := rfl
@[simp] theorem State.advanceWrite_held (s : State) (a : SnkAnswer) : (s.advanceWrite a).held = s.held := rfl
@[simp] theorem State.advanceWrite_byteReq (s : State) (a : SnkAnswer) : (s.advanceWrite a).byteReq = s.byteReq := rfl
@[simp] theorem State.advanceWrite_writeReq (s : State) (a : SnkAnswer) : (s.advanceWrite a).writeReq = .none := rfl
@[simp] theorem State.advanceWrite_ans (s : State) (a : SnkAnswer) : (s.advanceWrite a).ans = some a := rfl
@[simp] theorem State.advanceWrite_src (s : State) (a : SnkAnswer) : (s.advanceWrite a).src = s.src := rfl
@[simp] theorem State.advanceWrite_snk (s : State) (a : SnkAnswer) : (s.advanceWrite a).snk = s.snk := rfl
@[simp] theorem State.advanceWrite_program (s : State) (a : SnkAnswer) : (s.advanceWrite a).program = s.program := rfl
@[simp] theorem State.advanceWrite_blocking (s : State) (a : SnkAnswer) : (s.advanceWrite a).blocking = s.blocking := rfl
@[simp] theorem State.advanceWrite_received (s : State) (a : SnkAnswer) : (s.advanceWrite a).received = s.received := rfl
@[simp] theorem State.advanceWrite_srcSent (s : State) (a : SnkAnswer) : (s.advanceWrite a).srcSent = s.srcSent := rfl
@[simp] theorem State.advanceWrite_snkSent (s : State) (a : SnkAnswer) : (s.advanceWrite a).snkSent = s.snkSent := rfl
@[simp] theorem State.advanceWrite_agenda (s : State) (a : SnkAnswer) : (s.advanceWrite a).agenda = s.agenda := rfl
@[simp] theorem State.advanceWrite_draws (s : State) (a : SnkAnswer) : (s.advanceWrite a).draws = s.draws := rfl

/-! ### State.withdrawWrite -/

@[simp] theorem State.withdrawWrite_decType (s : State) (o : List Byte) : (s.withdrawWrite o).decType = s.decType := by
  unfold State.withdrawWrite; split <;> rfl
@[simp] theorem State.withdrawWrite_dec (s : State) (o : List Byte) : (s.withdrawWrite o).dec = s.dec := by
  unfold State.withdrawWrite; split <;> rfl
@[simp] theorem State.withdrawWrite_adp (s : State) (o : List Byte) : (s.withdrawWrite o).adp = s.adp := by
  unfold State.withdrawWrite; split <;> rfl
@[simp] theorem State.withdrawWrite_io (s : State) (o : List Byte) : (s.withdrawWrite o).io = s.io := by
  unfold State.withdrawWrite; split <;> rfl
@[simp] theorem State.withdrawWrite_reqCh (s : State) (o : List Byte) : (s.withdrawWrite o).reqCh = s.reqCh := by
  unfold State.withdrawWrite; split <;> rfl
@[simp] theorem State.withdrawWrite_rspCh (s : State) (o : List Byte) : (s.withdrawWrite o).rspCh = s.rspCh := by
  unfold State.withdrawWrite; split <;> rfl
@[simp] theorem State.withdrawWrite_held (s : State) (o : List Byte) : (s.withdrawWrite o).held = s.held := by
  unfold State.withdrawWrite; split <;> rfl
@[simp] theorem State.withdrawWrite_byteReq (s : State) (o : List Byte) : (s.withdrawWrite o).byteReq = s.byteReq := by
  unfold State.withdrawWrite; split <;> rfl
@[simp] theorem State.withdrawWrite_writeReq (s : State) (o : List Byte) : (s.withdrawWrite o).writeReq = s.writeReq := by
  unfold State.withdrawWrite; split <;> rfl
@[simp] theorem State.withdrawWrite_ans (s : State) (o : List Byte) : (s.withdrawWrite o).ans = s.ans := by
  unfold State.withdrawWrite; split <;> rfl
@[simp] theorem State.withdrawWrite_src (s : State) (o : List Byte) : (s.withdrawWrite o).src = s.src := by
  unfold State.withdrawWrite; split <;> rfl
@[simp] theorem State.withdrawWrite_program (s : State) (o : List Byte) : (s.withdrawWrite o).program = s.program := by
  unfold State.withdrawWrite; split <;> rfl
@[simp] theorem State.withdrawWrite_blocking (s : State) (o : List Byte) : (s.withdrawWrite o).blocking = s.blocking := by
  unfold State.withdrawWrite; split <;> rfl
@[simp] theorem State.withdrawWrite_received (s : State) (o : List Byte) : (s.withdrawWrite o).received = s.received := by
  unfold State.withdrawWrite; split <;> rfl
@[simp] theorem State.withdrawWrite_srcSent (s : State) (o : List Byte) : (s.withdrawWrite o).srcSent = s.srcSent := by
  unfold State.withdrawWrite; split <;> rfl
@[simp] theorem State.withdrawWrite_snkSent (s : State) (o : List Byte) : (s.withdrawWrite o).snkSent = s.snkSent := by
  unfold State.withdrawWrite; split <;> rfl
@[simp] theorem State.withdrawWrite_agenda (s : State) (o : List Byte) : (s.withdrawWrite o).agenda = s.agenda := by
  unfold State.withdrawWrite; split <;> rfl

/-- A withdrawn write leaves on the sink a part of what was offered, from its first byte on (R81, R101). -/
theorem State.withdrawWrite_snk_grows (s : State) (o : List Byte) :
    ∃ p, p <+: o ∧ (s.withdrawWrite o).snk = s.snk.map (· ++ p) := by
  unfold State.withdrawWrite
  split
  · exact ⟨_, List.take_prefix _ _, rfl⟩
  · exact ⟨[], List.nil_prefix, by cases s.snk <;> simp⟩

/-- A write still outstanding is withdrawn with one draw of the free prefix (R81, R101). -/
theorem State.withdrawWrite_waiting (s : State) (o : List Byte) (h : s.writeReq = .waiting) :
    s.withdrawWrite o = { s with
      snk := s.snk.map (· ++ o.take (Config.sinkPrefix s.draws)), draws := s.draws + 1 } := by
  simp [State.withdrawWrite, h]

/-! ### issueTurn -/

@[simp] theorem issueTurn_decType (s : State) : (issueTurn s).decType = s.decType := by
  unfold issueTurn; split
  · rfl
  · split <;> rfl
@[simp] theorem issueTurn_dec (s : State) : (issueTurn s).dec = s.dec := by
  unfold issueTurn; split
  · rfl
  · split <;> rfl
@[simp] theorem issueTurn_adp (s : State) : (issueTurn s).adp = s.adp := by
  unfold issueTurn; split
  · rfl
  · split <;> rfl
@[simp] theorem issueTurn_io (s : State) : (issueTurn s).io = s.io := by
  unfold issueTurn; split
  · rfl
  · split <;> rfl
@[simp] theorem issueTurn_rspCh (s : State) : (issueTurn s).rspCh = s.rspCh := by
  unfold issueTurn; split
  · rfl
  · split <;> rfl
@[simp] theorem issueTurn_held (s : State) : (issueTurn s).held = s.held := by
  unfold issueTurn; split
  · rfl
  · split <;> rfl
@[simp] theorem issueTurn_byteReq (s : State) : (issueTurn s).byteReq = s.byteReq := by
  unfold issueTurn; split
  · rfl
  · split <;> rfl
@[simp] theorem issueTurn_writeReq (s : State) : (issueTurn s).writeReq = s.writeReq := by
  unfold issueTurn; split
  · rfl
  · split <;> rfl
@[simp] theorem issueTurn_ans (s : State) : (issueTurn s).ans = s.ans := by
  unfold issueTurn; split
  · rfl
  · split <;> rfl
@[simp] theorem issueTurn_src (s : State) : (issueTurn s).src = s.src := by
  unfold issueTurn; split
  · rfl
  · split <;> rfl
@[simp] theorem issueTurn_snk (s : State) : (issueTurn s).snk = s.snk := by
  unfold issueTurn; split
  · rfl
  · split <;> rfl
@[simp] theorem issueTurn_blocking (s : State) : (issueTurn s).blocking = s.blocking := by
  unfold issueTurn; split
  · rfl
  · split <;> rfl
@[simp] theorem issueTurn_received (s : State) : (issueTurn s).received = s.received := by
  unfold issueTurn; split
  · rfl
  · split <;> rfl
@[simp] theorem issueTurn_srcSent (s : State) : (issueTurn s).srcSent = s.srcSent := by
  unfold issueTurn; split
  · rfl
  · split <;> rfl
@[simp] theorem issueTurn_snkSent (s : State) : (issueTurn s).snkSent = s.snkSent := by
  unfold issueTurn; split
  · rfl
  · split <;> rfl
@[simp] theorem issueTurn_agenda (s : State) : (issueTurn s).agenda = s.agenda := by
  unfold issueTurn; split
  · rfl
  · split <;> rfl
@[simp] theorem issueTurn_draws (s : State) : (issueTurn s).draws = s.draws := by
  unfold issueTurn; split
  · rfl
  · split <;> rfl

/-! ### readTurn -/

@[simp] theorem readTurn_decType (s : State) : (readTurn s).decType = s.decType := by
  unfold readTurn; split <;> rfl
@[simp] theorem readTurn_dec (s : State) : (readTurn s).dec = s.dec := by
  unfold readTurn; split <;> rfl
@[simp] theorem readTurn_adp (s : State) : (readTurn s).adp = s.adp := by
  unfold readTurn; split <;> rfl
@[simp] theorem readTurn_io (s : State) : (readTurn s).io = s.io := by
  unfold readTurn; split <;> rfl
@[simp] theorem readTurn_reqCh (s : State) : (readTurn s).reqCh = s.reqCh := by
  unfold readTurn; split <;> rfl
@[simp] theorem readTurn_held (s : State) : (readTurn s).held = s.held := by
  unfold readTurn; split <;> rfl
@[simp] theorem readTurn_byteReq (s : State) : (readTurn s).byteReq = s.byteReq := by
  unfold readTurn; split <;> rfl
@[simp] theorem readTurn_writeReq (s : State) : (readTurn s).writeReq = s.writeReq := by
  unfold readTurn; split <;> rfl
@[simp] theorem readTurn_ans (s : State) : (readTurn s).ans = s.ans := by
  unfold readTurn; split <;> rfl
@[simp] theorem readTurn_src (s : State) : (readTurn s).src = s.src := by
  unfold readTurn; split <;> rfl
@[simp] theorem readTurn_snk (s : State) : (readTurn s).snk = s.snk := by
  unfold readTurn; split <;> rfl
@[simp] theorem readTurn_program (s : State) : (readTurn s).program = s.program := by
  unfold readTurn; split <;> rfl
@[simp] theorem readTurn_blocking (s : State) : (readTurn s).blocking = s.blocking := by
  unfold readTurn; split <;> rfl
@[simp] theorem readTurn_srcSent (s : State) : (readTurn s).srcSent = s.srcSent := by
  unfold readTurn; split <;> rfl
@[simp] theorem readTurn_snkSent (s : State) : (readTurn s).snkSent = s.snkSent := by
  unfold readTurn; split <;> rfl
@[simp] theorem readTurn_agenda (s : State) : (readTurn s).agenda = s.agenda := by
  unfold readTurn; split <;> rfl
@[simp] theorem readTurn_draws (s : State) : (readTurn s).draws = s.draws := by
  unfold readTurn; split <;> rfl

/-! ### resetTurn -/

@[simp] theorem resetTurn_decType (s : State) : (resetTurn s).decType = none := rfl
@[simp] theorem resetTurn_dec (s : State) : (resetTurn s).dec = .acc 0 0 := rfl
@[simp] theorem resetTurn_adp (s : State) : (resetTurn s).adp = .idle := rfl
@[simp] theorem resetTurn_io (s : State) : (resetTurn s).io = none := rfl
@[simp] theorem resetTurn_reqCh (s : State) : (resetTurn s).reqCh = [] := rfl
@[simp] theorem resetTurn_rspCh (s : State) : (resetTurn s).rspCh = [] := rfl
@[simp] theorem resetTurn_held (s : State) : (resetTurn s).held = [] := rfl
@[simp] theorem resetTurn_byteReq (s : State) : (resetTurn s).byteReq = .none := rfl
@[simp] theorem resetTurn_writeReq (s : State) : (resetTurn s).writeReq = .none := rfl
@[simp] theorem resetTurn_ans (s : State) : (resetTurn s).ans = none := rfl
@[simp] theorem resetTurn_src (s : State) : (resetTurn s).src = s.src := by simp [resetTurn]
@[simp] theorem resetTurn_snk (s : State) : (resetTurn s).snk = (s.withdrawWrite s.adp.offered).snk := rfl
@[simp] theorem resetTurn_program (s : State) : (resetTurn s).program = s.program := by simp [resetTurn]
@[simp] theorem resetTurn_blocking (s : State) : (resetTurn s).blocking = s.blocking := by simp [resetTurn]
@[simp] theorem resetTurn_received (s : State) : (resetTurn s).received = s.received := by simp [resetTurn]
@[simp] theorem resetTurn_srcSent (s : State) : (resetTurn s).srcSent = s.srcSent := by simp [resetTurn]
@[simp] theorem resetTurn_snkSent (s : State) : (resetTurn s).snkSent = s.snkSent := by simp [resetTurn]
@[simp] theorem resetTurn_agenda (s : State) : (resetTurn s).agenda = s.agenda := by simp [resetTurn]
@[simp] theorem resetTurn_draws (s : State) : (resetTurn s).draws = (s.withdrawWrite s.adp.offered).draws := rfl

/-! ### Outstanding requests -/

/-- A byte request is awaited exactly in RD with the request outstanding (R18). -/
theorem State.readWaits_eq_some (s : State) (T : VType) : s.readWaits = some T ↔ s.adp = .rd T ∧ s.byteReq = .waiting := by
  unfold State.readWaits
  cases s.adp <;> cases s.byteReq <;> simp

/-- A write request is awaited exactly in WR with the request outstanding (R18). -/
theorem State.writeWaits_eq_some (s : State) (o : List Byte) :
    s.writeWaits = some o ↔ (∃ T, s.adp = .wr T o) ∧ s.writeReq = .waiting := by
  unfold State.writeWaits
  cases s.adp <;> cases s.writeReq <;> simp

/-! ### Forms of DEC and ADP -/

@[simp] theorem DecState.terminal_acc (a : Acc) (n : Count) : (DecState.acc a n).terminal = false := rfl
@[simp] theorem DecState.terminal_done (v : Int) (n : Count) : (DecState.done v n).terminal = true := rfl
@[simp] theorem DecState.terminal_failed (k : FailKind) (n : Count) : (DecState.failed k n).terminal = true := rfl
@[simp] theorem DecState.count_acc (a : Acc) (n : Count) : (DecState.acc a n).count = n := rfl
@[simp] theorem DecState.count_done (v : Int) (n : Count) : (DecState.done v n).count = n := rfl
@[simp] theorem DecState.count_failed (k : FailKind) (n : Count) : (DecState.failed k n).count = n := rfl
@[simp] theorem Adp.isIdle_idle : Adp.idle.isIdle = true := rfl
@[simp] theorem Adp.isIdle_rd (T : VType) : (Adp.rd T).isIdle = false := rfl
@[simp] theorem Adp.isIdle_wr (T : VType) (o : List Byte) : (Adp.wr T o).isIdle = false := rfl
@[simp] theorem Adp.offered_idle : Adp.idle.offered = [] := rfl
@[simp] theorem Adp.offered_rd (T : VType) : (Adp.rd T).offered = [] := rfl
@[simp] theorem Adp.offered_wr (T : VType) (o : List Byte) : (Adp.wr T o).offered = o := rfl

theorem Adp.isIdle_iff (a : Adp) : a.isIdle = true ↔ a = .idle := by cases a <;> simp

theorem Adp.isIdle_false_iff (a : Adp) : a.isIdle = false ↔ a ≠ .idle := by cases a <;> simp

/-- A state that is not terminal is an ACC (R11). -/
theorem DecState.eq_acc_of_not_terminal (d : DecState) (h : d.terminal = false) : ∃ a n, d = .acc a n := by
  cases d with
  | acc a n => exact ⟨a, n, rfl⟩
  | done v n => simp at h
  | failed k n => simp at h

end Sys2Proof.Machine
end

