-- ==== Sys2Proof/Laws/Ops.lean ====
section
/-! SUPPORT. What each shared operation of the machine can do, once. -/

namespace Sys2Proof.Machine

theorem State.respond_of_idle (s : State) (r : Response) (h : s.adp = .idle) :
    s.respond r = { s with rspCh := s.rspCh ++ [r] } := by simp [State.respond, h]

theorem State.respond_of_busy (s : State) (r : Response) (h : s.adp ≠ .idle) :
    s.respond r = { s with held := s.held ++ [r] } := by
  have : s.adp.isIdle = false := (Adp.isIdle_false_iff _).2 h
  simp [State.respond, this]

theorem State.unlessBusy_of_idle (s effect : State) (h : s.adp = .idle) : s.unlessBusy effect = .next effect := by
  simp [State.unlessBusy, h]

theorem State.unlessBusy_of_busy (s effect : State) (h : s.adp ≠ .idle) :
    s.unlessBusy effect = .next { s with held := s.held ++ [.plain .busy] } := by
  have : s.adp.isIdle = false := (Adp.isIdle_false_iff _).2 h
  simp only [State.unlessBusy, this, State.reject, State.respond_of_busy s _ h]
  rfl

/-- What the core may owe an operation in flight: the end of a read or the end of a write. -/
theorem State.coreDue_cases {s s' : State} (h : s.coreDue = some s') :
    (∃ T, s.adp = .rd T ∧ s.dec.terminal = true ∧ s' = s.complete (readResponse T s.dec s.io)) ∨
    ∃ T o a, s.adp = .wr T o ∧ s.ans = some a ∧ s' = s.complete (writeResponse o a) := by
  unfold State.coreDue at h
  split at h
  · cases h
  · rename_i T hT
    split at h
    · rename_i ht
      exact .inl ⟨T, hT, ht, (Option.some.inj h).symm⟩
    · cases h
  · rename_i T o hT
    split at h
    · rename_i a ha
      exact .inr ⟨T, o, a, hT, ha, (Option.some.inj h).symm⟩
    · cases h

/-- The core owes nothing exactly if it is free to take a command. -/
theorem State.coreDue_eq_none_iff (s : State) : s.coreDue = none ↔ s.CoreFree := by
  unfold State.coreDue State.CoreFree
  cases s.adp with
  | idle => simp
  | rd T => cases s.dec.terminal <;> simp
  | wr T o => cases s.ans <;> simp

/-- The core owes nothing while ADP is IDLE. -/
theorem State.coreDue_of_idle (s : State) (h : s.adp = .idle) : s.coreDue = none := by
  unfold State.coreDue; rw [h]

/-- Withdrawing a write leaves some prefix of it on the sink and changes nothing else but the draw counter (R81, R101). -/
theorem State.withdrawWrite_cases (s : State) (offered : List Byte) :
    ∃ p k, p <+: offered ∧ s.withdrawWrite offered = { s with snk := s.snk.map (· ++ p), draws := k } := by
  cases h : s.writeReq with
  | waiting =>
    refine ⟨offered.take (Config.sinkPrefix s.draws), s.draws + 1, List.take_prefix _ _, ?_⟩
    simp [State.withdrawWrite, h]
  | none => exact ⟨[], s.draws, List.nil_prefix, by cases s; simp_all [State.withdrawWrite]⟩

/-- Terminal states absorb end-of-input (R68). -/
theorem eofDec_terminal (d : DecState) : (eofDec d).terminal = true := by cases d <;> rfl

/-- End-of-input does not change the count (R68). -/
theorem eofDec_count (d : DecState) : (eofDec d).count = d.count := by cases d <;> rfl

/-- Terminal states absorb an I/O error (R69). -/
theorem ioErrDec_terminal (d : DecState) : (ioErrDec d).terminal = true := by cases d <;> rfl

/-- Terminal states absorb every answer of the source (R69, R73). -/
theorem answerDec_of_terminal (T : VType) (d : DecState) (a : SrcAnswer) (h : d.terminal = true) : answerDec T d a = d := by
  cases d with
  | acc b n => simp at h
  | done v n => cases a <;> rfl
  | failed k n => cases a <;> rfl

/-- The slice loop on the rest of a slice after one byte (R63). -/
theorem sliceLoop_cons (T : VType) (a : Acc) (n : Count) (b : Byte) (s : List Byte) :
    sliceLoop T (.acc a n) (b :: s) = sliceLoop T (stepDec T (.acc a n) b) s := rfl

/-- A slice that ends in ACC has no value (R63). -/
@[simp] theorem sliceLoop_acc_nil (T : VType) (a : Acc) (n : Count) : sliceLoop T (.acc a n) [] = none := rfl

/-- The slice loop stops at DONE with its value and count, whatever follows (R63, R65). -/
@[simp] theorem sliceLoop_done (T : VType) (v : Int) (n : Count) (s : List Byte) :
    sliceLoop T (.done v n) s = some (v, n) := by cases s <;> rfl

/-- The slice loop stops at FAILED with nothing, whatever follows (R63, R65). -/
@[simp] theorem sliceLoop_failed (T : VType) (k : FailKind) (n : Count) (s : List Byte) :
    sliceLoop T (.failed k n) s = none := by cases s <;> rfl

end Sys2Proof.Machine
end

