-- ==== Sys2Proof/Laws/Codec.lean ====
section
/-! SUPPORT. Arithmetic of the codec: the bounds of max_size, what one payload adds to the accumulator, and the slice loop
over a slice in two parts (R4, R63, R67). -/

namespace Sys2Proof.Machine

/-- No encoding is longer than ten bytes (R4). -/
theorem maxSize_le_ten (T : VType) : maxSize T ≤ 10 := by rcases T with ⟨_ | _ | _ | _, _ | _⟩ <;> decide

/-- Every type needs at least two groups for its greatest values (R4). -/
theorem two_le_maxSize (T : VType) : 2 ≤ maxSize T := by rcases T with ⟨_ | _ | _ | _, _ | _⟩ <;> decide

/-- M(T) groups hold W bits (R4). -/
theorem bits_le_groups (T : VType) : T.bits ≤ 7 * maxSize T := by rcases T with ⟨_ | _ | _ | _, _ | _⟩ <;> decide

/-- W is at most the value bus (R6). -/
theorem bits_le_val (T : VType) : T.bits ≤ 64 := by rcases T with ⟨_ | _ | _ | _, _ | _⟩ <;> decide

/-- The payload as a number (R39). -/
theorem payload_toNat (b : Byte) : (payload b).toNat = b.toNat % 128 := by revert b; decide

/-- Below M(T) the count does not wrap (R14). -/
theorem count_succ_toNat (T : VType) (n : Count) (h : n.toNat < maxSize T) : (n + 1).toNat = n.toNat + 1 := by
  have := maxSize_le_ten T
  rw [BitVec.toNat_add]
  simp
  omega

/-- Since acc < 2^(7n), the `|` of R67 is an addition, and no bit is lost in 128. -/
theorem acc_or_payload_toNat (bits : Acc) (n : Count) (b : Byte) (hn : n.toNat < 10)
    (hb : bits.toNat < 2 ^ (7 * n.toNat)) :
    (bits ||| ((payload b).setWidth 128 <<< (7 * n.toNat))).toNat =
      bits.toNat + b.toNat % 128 * 2 ^ (7 * n.toNat) := by
  have shifted : ((payload b).setWidth 128 <<< (7 * n.toNat) : Acc).toNat = b.toNat % 128 * 2 ^ (7 * n.toNat) := by
    have hp : b.toNat % 128 < 128 := Nat.mod_lt _ (by decide)
    have h63 : 2 ^ (7 * n.toNat) ≤ 2 ^ 63 := Nat.pow_le_pow_right (by decide) (by omega)
    rw [BitVec.toNat_shiftLeft, BitVec.toNat_setWidth, payload_toNat, Nat.shiftLeft_eq,
      Nat.mod_eq_of_lt (a := b.toNat % 128) (by omega)]
    apply Nat.mod_eq_of_lt
    calc b.toNat % 128 * 2 ^ (7 * n.toNat) < 128 * 2 ^ (7 * n.toNat) := by
          apply Nat.mul_lt_mul_of_pos_right hp (Nat.two_pow_pos _)
      _ ≤ 128 * 2 ^ 63 := Nat.mul_le_mul_left _ h63
      _ < 2 ^ 128 := by decide
  rw [BitVec.toNat_or, shifted, Nat.or_comm, Nat.mul_comm, ← Nat.two_pow_add_eq_or_of_lt hb, Nat.add_comm]

/-- Folding the step function over bytes leaves a terminal state as it is (R73). -/
theorem foldl_stepDec_terminal (T : VType) (s : List Byte) (d : DecState) (h : d.terminal = true) :
    s.foldl (stepDec T) d = d := by
  induction s with
  | nil => rfl
  | cons b s ih => cases d <;> simp_all [stepDec, DecState.terminal]

/-- The slice loop over `s ++ t` is the loop over t from where s leaves the machine (R63). -/
theorem sliceLoop_append (T : VType) (s t : List Byte) (d : DecState) :
    sliceLoop T d (s ++ t) = sliceLoop T (s.foldl (stepDec T) d) t := by
  induction s generalizing d with
  | nil => rfl
  | cons b s ih =>
    cases d with
    | acc a n => simp [sliceLoop, ih]
    | done v n => rw [foldl_stepDec_terminal _ _ _ rfl]; simp
    | failed k n => rw [foldl_stepDec_terminal _ _ _ rfl]; simp

end Sys2Proof.Machine
end

