-- ==== Sys2Proof/Laws/Decode.lean ====
section
/-! SUPPORT. What the decoder depends on: the verdict on a word is the command word's alone (R44, R46). -/

namespace Sys2Proof

@[simp] theorem Decoded.isNone_legalIf (ok : Bool) (why : IllegalWord) (i : Instr) :
    (Decoded.legalIf ok why i).toOption.isNone = !ok := by cases ok <;> rfl

/-- Whether a request is a legal command depends on its command word only. -/
theorem decode_isNone_cmd (r : Request) :
    (decode r).toOption.isNone = (decode (.ofCmd r.cmd)).toOption.isNone := by
  unfold decode
  simp only [Request.ofCmd]
  cases r.cmd.getLsbD 3
  · simp only [cond_false]
    split <;> first | simp only [Decoded.isNone_legalIf] | rfl
  · rfl

/-- A word is illegal exactly when the decoder reads no instruction. -/
theorem decode_illegal_iff (r : Request) :
    (∃ why, decode r = .illegal why) ↔ (decode r).toOption.isNone = true := by
  cases decode r <;> simp [Decoded.toOption]

/-- The command word of an encoding is the instruction's word of R49. -/
theorem encode_cmd (i : Instr) : (encode i).cmd = i.cmd := by cases i <;> rfl

end Sys2Proof
end

