-- ==== Sys2Proof/Laws/Exec.lean ====
section
/-! SUPPORT. What a command can do, and what a step can do: the inversion lemmas that proofs about every instruction
cite instead of unfolding the dispatch. -/

namespace Sys2Proof.Machine

/-- The commands that answer at once and leave the rest of the state alone, and the other effects a command can have. -/
theorem exec_cases (i : Instr) (s : State) :
    (∃ r, exec i s = .next (s.respond r) ∧ (r.status ≠ .ok → r.rval = 0)) ∨
    (s.adp = .idle ∧ ∃ T, i = .dinit T ∧
      exec i s = .next ({ s with decType := some T, dec := .acc 0 0 }.respond (decReport T (.acc 0 0) false))) ∨
    (s.adp = .idle ∧ ∃ T b, i = .dstep b ∧ s.decType = some T ∧
      exec i s = .next ({ s with dec := stepDec T s.dec b }.respond
        (decReport T (stepDec T s.dec b) (!s.dec.terminal)))) ∨
    (s.adp = .idle ∧ ∃ T, i = .deof ∧ s.decType = some T ∧
      exec i s = .next ({ s with dec := eofDec s.dec }.respond (decReport T (eofDec s.dec) false))) ∨
    (s.adp = .idle ∧ ∃ T val, i = .wrvar T val ∧
      exec i s = .next
        { s with
          adp := .wr T (encodeVar T (operand T val)), writeReq := .waiting, ans := none
          snkSent := s.snkSent + 1 }) ∨
    (s.adp = .idle ∧ ∃ T, i = .rdvar T ∧
      exec i s = .next
        { s with
          decType := some T, dec := .acc 0 0, adp := .rd T, io := none, byteReq := .waiting
          srcSent := s.srcSent + 1 }) ∨
    (∃ T, s.adp = .rd T ∧ i = .abort ∧
      exec i s = .next (({ s with dec := .failed .cancelled s.dec.count }.complete
        { Response.plain .cancelled with rlen := s.dec.count }).respond (.plain .ok))) ∨
    ∃ T o, s.adp = .wr T o ∧ i = .abort ∧
      exec i s = .next (((s.withdrawWrite o).complete (.plain .cancelled)).respond (.plain .ok)) := by
  by_cases hi : s.adp = .idle
  · have resp : ∀ r, s.unlessBusy (s.respond r) = .next (s.respond r) := fun r => s.unlessBusy_of_idle _ hi
    have vdec : ∀ T sb slen, (vdecResponse T sb slen).status ≠ .ok → (vdecResponse T sb slen).rval = 0 := by
      intro T sb slen h
      unfold vdecResponse at h ⊢
      split <;> simp_all [Response.plain]
    cases i
    case dstep b =>
      cases hT : s.decType with
      | none =>
        exact .inl ⟨.plain .notInitialised, by simp [exec, execDstep, hT, State.unlessBusy, hi, State.reject],
          fun _ => rfl⟩
      | some T =>
        exact .inr (.inr (.inl ⟨hi, T, b, rfl, rfl, by simp [exec, execDstep, hT, State.unlessBusy, hi]⟩))
    case deof =>
      cases hT : s.decType with
      | none =>
        exact .inl ⟨.plain .notInitialised, by simp [exec, execDeof, hT, State.unlessBusy, hi, State.reject],
          fun _ => rfl⟩
      | some T =>
        exact .inr (.inr (.inr (.inl ⟨hi, T, rfl, rfl, by simp [exec, execDeof, hT, State.unlessBusy, hi]⟩)))
    case abort => exact .inl ⟨.plain .ok, by simp [exec, execAbort, hi], fun _ => rfl⟩
    all_goals first
      | exact .inl ⟨_, resp _, fun h => absurd rfl h⟩
      | exact .inl ⟨_, resp _, vdec _ _ _⟩
      | exact .inr (.inl ⟨hi, _, rfl, s.unlessBusy_of_idle _ hi⟩)
      | exact .inr (.inr (.inr (.inr (.inl ⟨hi, ⟨.w8, _⟩, _, rfl, s.unlessBusy_of_idle _ hi⟩))))
      | exact .inr (.inr (.inr (.inr (.inl ⟨hi, ⟨.w16, _⟩, _, rfl, s.unlessBusy_of_idle _ hi⟩))))
      | exact .inr (.inr (.inr (.inr (.inl ⟨hi, ⟨.w32, _⟩, _, rfl, s.unlessBusy_of_idle _ hi⟩))))
      | exact .inr (.inr (.inr (.inr (.inl ⟨hi, ⟨.w64, _⟩, _, rfl, s.unlessBusy_of_idle _ hi⟩))))
      | exact .inr (.inr (.inr (.inr (.inr (.inl ⟨hi, _, rfl, s.unlessBusy_of_idle _ hi⟩)))))
  · have busy : ∀ effect, s.unlessBusy effect = .next (s.respond (.plain .busy)) := by
      intro effect
      rw [s.unlessBusy_of_busy effect hi, State.respond_of_busy s _ hi]
    cases i
    case abort =>
      cases hA : s.adp with
      | idle => exact absurd hA hi
      | rd T =>
        exact .inr (.inr (.inr (.inr (.inr (.inr (.inl ⟨T, rfl, rfl, by simp [exec, execAbort, hA]⟩))))))
      | wr T o =>
        exact .inr (.inr (.inr (.inr (.inr (.inr (.inr ⟨T, o, rfl, rfl, by simp [exec, execAbort, hA]⟩))))))
    all_goals exact .inl ⟨_, busy _, fun _ => rfl⟩

end Sys2Proof.Machine
end

