-- ==== Sys2Proof/Laws/PerInstr.lean ====
section
/-! SUPPORT. Laws of single commands as syntax, one lemma a constructor: cmd[3] of every command word is 0 (R44). -/

namespace Sys2Proof.Laws.ReservedBit

/-- The encoding of `i` has the reserved bit cmd[3] clear, and an operation of the map, below 0xC (R44, R49). -/
def Statement (i : Instr) : Prop := (encode i).cmd.getLsbD 3 = false ∧ cmdOp (encode i).cmd < 0xC

theorem every (i : Instr) : Statement i := by cases i <;> simp [Statement, encode, Instr.cmd, Request.ofCmd, cmdOp]

theorem zzencI8 (val : Val) : Statement (.zzencI8 val) := every _
theorem zzencI16 (val : Val) : Statement (.zzencI16 val) := every _
theorem zzencI32 (val : Val) : Statement (.zzencI32 val) := every _
theorem zzencI64 (val : Val) : Statement (.zzencI64 val) := every _
theorem zzdecI8 (val : Val) : Statement (.zzdecI8 val) := every _
theorem zzdecI16 (val : Val) : Statement (.zzdecI16 val) := every _
theorem zzdecI32 (val : Val) : Statement (.zzdecI32 val) := every _
theorem zzdecI64 (val : Val) : Statement (.zzdecI64 val) := every _
theorem vmaxszU8 : Statement (.vmaxszU8) := every _
theorem vmaxszU16 : Statement (.vmaxszU16) := every _
theorem vmaxszU32 : Statement (.vmaxszU32) := every _
theorem vmaxszU64 : Statement (.vmaxszU64) := every _
theorem vmaxszI8 : Statement (.vmaxszI8) := every _
theorem vmaxszI16 : Statement (.vmaxszI16) := every _
theorem vmaxszI32 : Statement (.vmaxszI32) := every _
theorem vmaxszI64 : Statement (.vmaxszI64) := every _
theorem vrspaceU8 (val : Val) : Statement (.vrspaceU8 val) := every _
theorem vrspaceU16 (val : Val) : Statement (.vrspaceU16 val) := every _
theorem vrspaceU32 (val : Val) : Statement (.vrspaceU32 val) := every _
theorem vrspaceU64 (val : Val) : Statement (.vrspaceU64 val) := every _
theorem vrspaceI8 (val : Val) : Statement (.vrspaceI8 val) := every _
theorem vrspaceI16 (val : Val) : Statement (.vrspaceI16 val) := every _
theorem vrspaceI32 (val : Val) : Statement (.vrspaceI32 val) := every _
theorem vrspaceI64 (val : Val) : Statement (.vrspaceI64 val) := every _
theorem vencU8 (val : Val) : Statement (.vencU8 val) := every _
theorem vencU16 (val : Val) : Statement (.vencU16 val) := every _
theorem vencU32 (val : Val) : Statement (.vencU32 val) := every _
theorem vencU64 (val : Val) : Statement (.vencU64 val) := every _
theorem vencI8 (val : Val) : Statement (.vencI8 val) := every _
theorem vencI16 (val : Val) : Statement (.vencI16 val) := every _
theorem vencI32 (val : Val) : Statement (.vencI32 val) := every _
theorem vencI64 (val : Val) : Statement (.vencI64 val) := every _
theorem vdecU8 (sb : Lanes) (slen : BitVec 4) : Statement (.vdecU8 sb slen) := every _
theorem vdecU16 (sb : Lanes) (slen : BitVec 4) : Statement (.vdecU16 sb slen) := every _
theorem vdecU32 (sb : Lanes) (slen : BitVec 4) : Statement (.vdecU32 sb slen) := every _
theorem vdecU64 (sb : Lanes) (slen : BitVec 4) : Statement (.vdecU64 sb slen) := every _
theorem vdecI8 (sb : Lanes) (slen : BitVec 4) : Statement (.vdecI8 sb slen) := every _
theorem vdecI16 (sb : Lanes) (slen : BitVec 4) : Statement (.vdecI16 sb slen) := every _
theorem vdecI32 (sb : Lanes) (slen : BitVec 4) : Statement (.vdecI32 sb slen) := every _
theorem vdecI64 (sb : Lanes) (slen : BitVec 4) : Statement (.vdecI64 sb slen) := every _
theorem dinitU8 : Statement (.dinitU8) := every _
theorem dinitU16 : Statement (.dinitU16) := every _
theorem dinitU32 : Statement (.dinitU32) := every _
theorem dinitU64 : Statement (.dinitU64) := every _
theorem dinitI8 : Statement (.dinitI8) := every _
theorem dinitI16 : Statement (.dinitI16) := every _
theorem dinitI32 : Statement (.dinitI32) := every _
theorem dinitI64 : Statement (.dinitI64) := every _
theorem dstep (b : Byte) : Statement (.dstep b) := every _
theorem deof : Statement (.deof) := every _
theorem wrvarU8 (val : Val) : Statement (.wrvarU8 val) := every _
theorem wrvarU16 (val : Val) : Statement (.wrvarU16 val) := every _
theorem wrvarU32 (val : Val) : Statement (.wrvarU32 val) := every _
theorem wrvarU64 (val : Val) : Statement (.wrvarU64 val) := every _
theorem wrvarI8 (val : Val) : Statement (.wrvarI8 val) := every _
theorem wrvarI16 (val : Val) : Statement (.wrvarI16 val) := every _
theorem wrvarI32 (val : Val) : Statement (.wrvarI32 val) := every _
theorem wrvarI64 (val : Val) : Statement (.wrvarI64 val) := every _
theorem rdvarU8 : Statement (.rdvarU8) := every _
theorem rdvarU16 : Statement (.rdvarU16) := every _
theorem rdvarU32 : Statement (.rdvarU32) := every _
theorem rdvarU64 : Statement (.rdvarU64) := every _
theorem rdvarI8 : Statement (.rdvarI8) := every _
theorem rdvarI16 : Statement (.rdvarI16) := every _
theorem rdvarI32 : Statement (.rdvarI32) := every _
theorem rdvarI64 : Statement (.rdvarI64) := every _
theorem abort : Statement (.abort) := every _

end Sys2Proof.Laws.ReservedBit
end

