-- ==== Sys2Proof/Laws/Step.lean ====
section
/-! SUPPORT. What one step can do: the inversion lemma of the step function, agent by agent. -/

namespace Sys2Proof.Machine

/-- A core that owes nothing has nothing due, whatever stands in the fields that the adapters do not use. -/
theorem State.coreDue_of_coreFree (s : State) (ag : List Turn) (h : s.CoreFree) :
    State.coreDue { s with agenda := ag } = none := (State.coreDue_eq_none_iff _).2 h

/-- The answer of the attached source to the outstanding byte request, taken (R25, R79). -/
theorem sourceTurn_of_awaited {s : State} {src : Source} {T : VType} (draw : SrcAnswer) (hs : s.src = some src)
    (hA : s.adp = .rd T) (hb : s.byteReq = .waiting) :
    sourceTurn 0 draw s = .next ({ s with src := some (src.answer draw).2 }.advanceRead T (src.answer draw).1) := by
  have hw := (s.readWaits_eq_some T).2 ⟨hA, hb⟩
  unfold sourceTurn
  rw [hw]
  split
  · rename_i h
    rw [hs] at h
    cases h
  · rename_i src' h
    rw [hs] at h
    cases h
    rfl

/-- The answer of the attached sink to the outstanding write request, taken (R27, R75). -/
theorem sinkTurn_of_awaited {s : State} {data offered : List Byte} {T : VType} (draw : SnkAnswer)
    (hs : s.snk = some data) (hA : s.adp = .wr T offered) (hw : s.writeReq = .waiting) :
    sinkTurn 0 draw s = .next ({ s with snk := some (data ++ draw.accepted offered) }.advanceWrite draw) := by
  have hw := (s.writeWaits_eq_some offered).2 ⟨⟨T, hA⟩, hw⟩
  unfold sinkTurn
  rw [hw]
  split
  · rename_i h
    rw [hs] at h
    cases h
  · rename_i data' h
    rw [hs] at h
    cases h
    rfl

/-- What a source's turn can do: nothing with no source attached, else the answer to the outstanding request, taken. -/
theorem sourceTurn_cases {age : Nat} {draw : SrcAnswer} {s t : State} (h : sourceTurn age draw s = .next t) :
    (s.src = none ∧ t = s) ∨
    ∃ src T, s.src = some src ∧ age = 0 ∧ s.adp = .rd T ∧ s.byteReq = .waiting ∧
      t = { s with src := some (src.answer draw).2 }.advanceRead T (src.answer draw).1 := by
  unfold sourceTurn at h
  split at h
  · rename_i hs
    cases h
    exact .inl ⟨hs, rfl⟩
  · rename_i src hs
    split at h
    · rename_i T hw
      cases h
      obtain ⟨hA, hb⟩ := (s.readWaits_eq_some T).1 hw
      exact .inr ⟨src, T, hs, rfl, hA, hb, rfl⟩
    · split at h <;> cases h

/-- What a sink's turn can do: nothing with no sink attached, else the answer to the outstanding request, taken. -/
theorem sinkTurn_cases {age : Nat} {draw : SnkAnswer} {s t : State} (h : sinkTurn age draw s = .next t) :
    (s.snk = none ∧ t = s) ∨
    ∃ data T offered, s.snk = some data ∧ age = 0 ∧ s.adp = .wr T offered ∧ s.writeReq = .waiting ∧
      t = { s with snk := some (data ++ draw.accepted offered) }.advanceWrite draw := by
  unfold sinkTurn at h
  split at h
  · rename_i hs
    cases h
    exact .inl ⟨hs, rfl⟩
  · rename_i data hs
    split at h
    · rename_i offered hw
      cases h
      obtain ⟨⟨T, hA⟩, hb⟩ := (s.writeWaits_eq_some offered).1 hw
      exact .inr ⟨data, T, offered, hs, rfl, hA, hb, rfl⟩
    · split at h <;> cases h

/-- When the core moves, the step is its turn on the state with the turn spent. -/
theorem step_of_coreMoves (s : State) (ag : List Turn) (h : s.CoreMoves ag) :
    step s = coreTurn { s with agenda := ag } := by
  rcases h with ⟨ha, rfl⟩ | ha
  · have e : { s with agenda := [] } = s := by cases s; simp_all
    rw [e]
    simp [step, nextMove, ha]
  · simp [step, nextMove, ha, takeTurn]

/-- What the core does when it moves in `s`: it pays what it owes, waits, turns an illegal word away, or runs a command. -/
theorem coreTurn_cases {s t : State} (h : coreTurn s = .next t) :
    s.coreDue = some t ∨
    (s.coreDue = none ∧ s.reqCh = [] ∧ t = s) ∨
    ∃ r rest, s.coreDue = none ∧ s.reqCh = r :: rest ∧
      ((∃ why, decode r = .illegal why ∧ t = { s with reqCh := rest }.reject .illegalCommand) ∨
        ∃ i, decode r = .instr i ∧ exec i { s with reqCh := rest } = .next t) := by
  unfold coreTurn at h
  split at h
  · rename_i s' hd
    rw [hd]
    cases h
    exact .inl rfl
  · rename_i hd
    split at h
    · rename_i hr
      cases h
      exact .inr (.inl ⟨hd, hr, rfl⟩)
    · rename_i r rest hr
      refine .inr (.inr ⟨r, rest, hd, hr, ?_⟩)
      unfold runCommand at h
      split at h
      · rename_i i hi
        exact .inr ⟨i, hi, h⟩
      · rename_i why hw
        cases h
        exact .inl ⟨why, hw, rfl⟩

/-- One step with a next state is one of these moves, made on the state with the turn spent. -/
theorem step_cases {s t : State} (h : step s = .next t) :
    (∃ ag, s.CoreMoves ag ∧ coreTurn { s with agenda := ag } = .next t) ∨
    (∃ ag, s.agenda = .issue :: ag ∧ t = issueTurn { s with agenda := ag }) ∨
    (∃ ag, s.agenda = .readResponse :: ag ∧ t = readTurn { s with agenda := ag }) ∨
    (∃ age draw ag, s.agenda = .source age draw :: ag ∧
      ((s.src = none ∧ t = { s with agenda := ag }) ∨
        ∃ src T, s.src = some src ∧ age = 0 ∧ s.adp = .rd T ∧ s.byteReq = .waiting ∧
          t = { s with agenda := ag, src := some (src.answer draw).2 }.advanceRead T (src.answer draw).1)) ∨
    (∃ age draw ag, s.agenda = .sink age draw :: ag ∧
      ((s.snk = none ∧ t = { s with agenda := ag }) ∨
        ∃ data T offered, s.snk = some data ∧ age = 0 ∧ s.adp = .wr T offered ∧ s.writeReq = .waiting ∧
          t = { s with agenda := ag, snk := some (data ++ draw.accepted offered) }.advanceWrite draw)) ∨
    (∃ ag, s.agenda = .foreignRead :: ag ∧
      ((s.src = none ∧ t = { s with agenda := ag }) ∨
        ∃ src, s.src = some src ∧ (∀ T, s.adp ≠ .rd T) ∧ t = { s with agenda := ag, src := some src.consumed })) ∨
    (∃ src ag, s.agenda = .attachSource src :: ag ∧ s.adp = .idle ∧ src.cursorOk = true ∧
      t = { s with agenda := ag, src := some src }) ∨
    (∃ data ag, s.agenda = .attachSink data :: ag ∧ s.adp = .idle ∧
      t = { s with agenda := ag, snk := some data }) ∨
    ∃ ag, s.agenda = .reset :: ag ∧ t = resetTurn { s with agenda := ag } := by
  unfold step nextMove at h
  split at h
  · rename_i ha
    refine .inl ⟨[], .inl ⟨ha, rfl⟩, ?_⟩
    have e : { s with agenda := [] } = s := by cases s; simp_all
    rw [e]
    exact h
  · rename_i turn ag ha
    cases turn with
    | core => exact .inl ⟨ag, .inr ha, h⟩
    | issue =>
      cases h
      exact .inr (.inl ⟨ag, ha, rfl⟩)
    | readResponse =>
      cases h
      exact .inr (.inr (.inl ⟨ag, ha, rfl⟩))
    | source age draw => exact .inr (.inr (.inr (.inl ⟨age, draw, ag, ha, sourceTurn_cases h⟩)))
    | sink age draw => exact .inr (.inr (.inr (.inr (.inl ⟨age, draw, ag, ha, sinkTurn_cases h⟩))))
    | foreignRead =>
      refine .inr (.inr (.inr (.inr (.inr (.inl ⟨ag, ha, ?_⟩)))))
      simp only [takeTurn, foreignReadTurn] at h
      split at h
      · rename_i hs
        cases h
        exact .inl ⟨hs, rfl⟩
      · rename_i src hs
        split at h
        · cases h
        · rename_i hn
          cases h
          exact .inr ⟨src, hs, hn, rfl⟩
    | attachSource src =>
      simp only [takeTurn, attachSourceTurn] at h
      split at h
      · rename_i hi
        split at h
        · rename_i hc
          cases h
          exact .inr (.inr (.inr (.inr (.inr (.inr (.inl ⟨src, ag, ha, (Adp.isIdle_iff _).1 hi, hc, rfl⟩))))))
        · cases h
      · cases h
    | attachSink data =>
      simp only [takeTurn, attachSinkTurn] at h
      split at h
      · rename_i hi
        cases h
        exact .inr (.inr (.inr (.inr (.inr (.inr (.inr (.inl ⟨data, ag, ha, (Adp.isIdle_iff _).1 hi, rfl⟩)))))))
      · cases h
    | reset =>
      cases h
      exact .inr (.inr (.inr (.inr (.inr (.inr (.inr (.inr ⟨ag, ha, rfl⟩)))))))

end Sys2Proof.Machine
end

