-- ==== Sys2Proof/Tests/Slice0.lean ====
section
/-! SUPPORT. Tests of one step or one decode each, with expected results taken from spec/ (the map of R49, the tables of
95_test_vectors.md), and for every obligation with hypotheses a state or operands that meet them, at boundary values. -/

open Sys2Proof Sys2Proof.Machine

namespace Sys2Proof.Tests

/-! ### Helpers -/

/-- The responses on the channel after a command run right after reset. -/
def answers (i : Instr) : List Response :=
  match exec i State.reset with
  | .next s => s.rspCh
  | _ => []

/-- The state after one step, or the state itself where the step has none. -/
def stepped (s : State) : State :=
  match step s with
  | .next t => t
  | _ => s

/-- After reset, with a decode of type T in state d. -/
def decoding (T : VType) (d : DecState) : State := { State.reset with decType := some T, dec := d }

/-- A RDVAR.T in flight whose DEC is d. -/
def reading (T : VType) (d : DecState) (p : Port) : State :=
  { decoding T d with adp := .rd T, byteReq := p, srcSent := 1 }

/-- A RDVAR.T in flight whose DEC is d, the next move being the answer `a` of an oracle source. -/
def answering (T : VType) (d : DecState) (a : SrcAnswer) : State :=
  { reading T d .waiting with src := some (.oracle []), agenda := [.source 0 a] }

/-- A WRVAR.u32 300 in flight on an empty sink. -/
def writing : State :=
  { State.reset with adp := .wr .u32 [0xAC, 0x02], writeReq := .waiting, snk := some [], snkSent := 1 }

/-- The same WRVAR, answered by the sink and not yet ended. -/
def written (a : SnkAnswer) : State := { writing with writeReq := .none, ans := some a }

/-- The state with a command waiting, whose next move is the core's. -/
def asked (s : State) (i : Instr) : State := { s with reqCh := [encode i], agenda := [.core] }

/-- A response OK with a value and a count. -/
def okValue (v : Val) (n : Count) : Response := { Response.plain .ok with rval := v, rlen := n }

/-- A response OK with bytes. -/
def okBytes (s : List Byte) (n : Count) : Response := { Response.plain .ok with rbytes := Lanes.ofList s, rlen := n }

/-! ### WellFormed refuses an ill-formed term, one for each check -/

theorem test_wf_unsigned_val : (Instr.vencU8 0x1FF).wf = false ∧ (Instr.vencU8 0xFF).wf = true := by decide

theorem test_wf_signed_val :
    (Instr.wrvarI8 0x80).wf = false ∧ (Instr.wrvarI8 0xFFFFFFFFFFFFFF80).wf = true := by decide

theorem test_wf_zzenc_val :
    (Instr.zzencI16 0x8000).wf = false ∧ (Instr.zzencI16 0xFFFFFFFFFFFF8000).wf = true := by decide

theorem test_wf_zzdec_val :
    (Instr.zzdecI32 0xFFFFFFFF80000000).wf = false ∧ (Instr.zzdecI32 0x80000000).wf = true := by decide

theorem test_wf_slice_length :
    (Instr.vdecU8 Lanes.zero 11).wf = false ∧ (Instr.vdecU8 Lanes.zero 10).wf = true := by decide

theorem test_wf_lane_past_slice :
    (Instr.vdecU8 (Lanes.ofList [1, 2, 3]) 2).wf = false ∧ (Instr.vdecU8 (Lanes.ofList [1, 2, 3]) 3).wf = true := by
  decide

/-! ### Decoding: every word of the map of R49, with operand fields that the command may or may not name -/

/-- A request with every operand field set. -/
def full (c : Byte) : Request := ⟨c, 7, Lanes.ofList [9], 1, 5⟩

theorem test_decode_zzenc :
    decode (full 0b00000100) = .instr (.zzencI8 7) ∧
    decode (full 0b00000101) = .instr (.zzencI16 7) ∧
    decode (full 0b00000110) = .instr (.zzencI32 7) ∧
    decode (full 0b00000111) = .instr (.zzencI64 7) := by decide

theorem test_decode_zzdec :
    decode (full 0b00010100) = .instr (.zzdecI8 7) ∧
    decode (full 0b00010101) = .instr (.zzdecI16 7) ∧
    decode (full 0b00010110) = .instr (.zzdecI32 7) ∧
    decode (full 0b00010111) = .instr (.zzdecI64 7) := by decide

theorem test_decode_vmaxsz :
    decode (full 0b00100000) = .instr .vmaxszU8 ∧
    decode (full 0b00100001) = .instr .vmaxszU16 ∧
    decode (full 0b00100010) = .instr .vmaxszU32 ∧
    decode (full 0b00100011) = .instr .vmaxszU64 ∧
    decode (full 0b00100100) = .instr .vmaxszI8 ∧
    decode (full 0b00100101) = .instr .vmaxszI16 ∧
    decode (full 0b00100110) = .instr .vmaxszI32 ∧
    decode (full 0b00100111) = .instr .vmaxszI64 := by decide

theorem test_decode_vrspace :
    decode (full 0b00110000) = .instr (.vrspaceU8 7) ∧
    decode (full 0b00110001) = .instr (.vrspaceU16 7) ∧
    decode (full 0b00110010) = .instr (.vrspaceU32 7) ∧
    decode (full 0b00110011) = .instr (.vrspaceU64 7) ∧
    decode (full 0b00110100) = .instr (.vrspaceI8 7) ∧
    decode (full 0b00110101) = .instr (.vrspaceI16 7) ∧
    decode (full 0b00110110) = .instr (.vrspaceI32 7) ∧
    decode (full 0b00110111) = .instr (.vrspaceI64 7) := by decide

theorem test_decode_venc :
    decode (full 0b01000000) = .instr (.vencU8 7) ∧
    decode (full 0b01000001) = .instr (.vencU16 7) ∧
    decode (full 0b01000010) = .instr (.vencU32 7) ∧
    decode (full 0b01000011) = .instr (.vencU64 7) ∧
    decode (full 0b01000100) = .instr (.vencI8 7) ∧
    decode (full 0b01000101) = .instr (.vencI16 7) ∧
    decode (full 0b01000110) = .instr (.vencI32 7) ∧
    decode (full 0b01000111) = .instr (.vencI64 7) := by decide

theorem test_decode_vdec :
    decode (full 0b01010000) = .instr (.vdecU8 (Lanes.ofList [9]) 1) ∧
    decode (full 0b01010001) = .instr (.vdecU16 (Lanes.ofList [9]) 1) ∧
    decode (full 0b01010010) = .instr (.vdecU32 (Lanes.ofList [9]) 1) ∧
    decode (full 0b01010011) = .instr (.vdecU64 (Lanes.ofList [9]) 1) ∧
    decode (full 0b01010100) = .instr (.vdecI8 (Lanes.ofList [9]) 1) ∧
    decode (full 0b01010101) = .instr (.vdecI16 (Lanes.ofList [9]) 1) ∧
    decode (full 0b01010110) = .instr (.vdecI32 (Lanes.ofList [9]) 1) ∧
    decode (full 0b01010111) = .instr (.vdecI64 (Lanes.ofList [9]) 1) := by decide

theorem test_decode_dinit :
    decode (full 0b01100000) = .instr .dinitU8 ∧
    decode (full 0b01100001) = .instr .dinitU16 ∧
    decode (full 0b01100010) = .instr .dinitU32 ∧
    decode (full 0b01100011) = .instr .dinitU64 ∧
    decode (full 0b01100100) = .instr .dinitI8 ∧
    decode (full 0b01100101) = .instr .dinitI16 ∧
    decode (full 0b01100110) = .instr .dinitI32 ∧
    decode (full 0b01100111) = .instr .dinitI64 := by decide

theorem test_decode_dstep :
    decode (full 0b01110000) = .instr (.dstep 5) := by decide

theorem test_decode_deof :
    decode (full 0b10000000) = .instr .deof := by decide

theorem test_decode_wrvar :
    decode (full 0b10010000) = .instr (.wrvarU8 7) ∧
    decode (full 0b10010001) = .instr (.wrvarU16 7) ∧
    decode (full 0b10010010) = .instr (.wrvarU32 7) ∧
    decode (full 0b10010011) = .instr (.wrvarU64 7) ∧
    decode (full 0b10010100) = .instr (.wrvarI8 7) ∧
    decode (full 0b10010101) = .instr (.wrvarI16 7) ∧
    decode (full 0b10010110) = .instr (.wrvarI32 7) ∧
    decode (full 0b10010111) = .instr (.wrvarI64 7) := by decide

theorem test_decode_rdvar :
    decode (full 0b10100000) = .instr .rdvarU8 ∧
    decode (full 0b10100001) = .instr .rdvarU16 ∧
    decode (full 0b10100010) = .instr .rdvarU32 ∧
    decode (full 0b10100011) = .instr .rdvarU64 ∧
    decode (full 0b10100100) = .instr .rdvarI8 ∧
    decode (full 0b10100101) = .instr .rdvarI16 ∧
    decode (full 0b10100110) = .instr .rdvarI32 ∧
    decode (full 0b10100111) = .instr .rdvarI64 := by decide

theorem test_decode_abort :
    decode (full 0b10110000) = .instr .abort := by decide

/-- Illegal words of each line of R50, at the ends of the ranges, beside legal neighbours. -/
theorem test_decode_illegal :
    decode (full 0b00001000) = .illegal .reservedBit ∧ decode (full 0b01001111) = .illegal .reservedBit ∧
    decode (full 0b11000000) = .illegal .reservedOp ∧ decode (full 0b11110111) = .illegal .reservedOp ∧
    decode (full 0b00000000) = .illegal .zigzagUnsigned ∧ decode (full 0b00000011) = .illegal .zigzagUnsigned ∧
    decode (full 0b00010000) = .illegal .zigzagUnsigned ∧ decode (full 0b00010011) = .illegal .zigzagUnsigned ∧
    decode (full 0b01110001) = .illegal .typeFieldNotZero ∧ decode (full 0b10000111) = .illegal .typeFieldNotZero ∧
    decode (full 0b10110001) = .illegal .typeFieldNotZero := by decide

theorem test_decodeTableWord :
    decodeTableWord 8 0x47 = some (.vencI64 0) ∧ decodeTableWord 8 0x4F = none ∧ decodeTableWord 16 0x47 = none := by
  decide

/-! ### The datapath, rows of 95_test_vectors.md part 2 -/

/-- 2.1, the rows -150 and min. -/
theorem test_zzenc_min :
    answers (.zzencI8 0xFFFFFFFFFFFFFF80) = [okValue 0xFF 0] ∧
    answers (.zzencI16 0xFFFFFFFFFFFF8000) = [okValue 0xFFFF 0] ∧
    answers (.zzencI32 0xFFFFFFFF80000000) = [okValue 0xFFFFFFFF 0] ∧
    answers (.zzencI64 0x8000000000000000) = [okValue 0xFFFFFFFFFFFFFFFF 0] := by decide

theorem test_zzenc_upper_bits :
    answers (.zzencI8 0x1234567890ABCD80) = [okValue 0xFF 0] ∧
    answers (.zzencI64 0xFFFFFFFFFFFFFF6A) = [okValue 299 0] := by decide

/-- 2.1, the row 2^W - 1. -/
theorem test_zzdec_max :
    answers (.zzdecI8 0xFF) = [okValue 0xFFFFFFFFFFFFFF80 0] ∧
    answers (.zzdecI16 0xFFFF) = [okValue 0xFFFFFFFFFFFF8000 0] ∧
    answers (.zzdecI32 0xFFFFFFFF) = [okValue 0xFFFFFFFF80000000 0] ∧
    answers (.zzdecI64 0xFFFFFFFFFFFFFFFF) = [okValue 0x8000000000000000 0] := by decide

theorem test_zzdec_upper_bits :
    answers (.zzdecI8 0x1FE) = [okValue 0x7F 0] ∧ answers (.zzdecI16 299) = [okValue 0xFFFFFFFFFFFFFF6A 0] := by decide

/-- 2.2. -/
theorem test_vmaxsz :
    answers .vmaxszU8 = [okValue 0 2] ∧ answers .vmaxszU16 = [okValue 0 3] ∧ answers .vmaxszU32 = [okValue 0 5] ∧
    answers .vmaxszU64 = [okValue 0 10] ∧ answers .vmaxszI8 = [okValue 0 2] ∧ answers .vmaxszI16 = [okValue 0 3] ∧
    answers .vmaxszI32 = [okValue 0 5] ∧ answers .vmaxszI64 = [okValue 0 10] := by decide

/-- 2.3, boundaries. -/
theorem test_vrspace_unsigned :
    answers (.vrspaceU8 0x7F) = [okValue 0 1] ∧ answers (.vrspaceU16 0x4000) = [okValue 0 3] ∧
    answers (.vrspaceU32 0x10000000) = [okValue 0 5] ∧ answers (.vrspaceU64 0x7FFFFFFFFFFFFFFF) = [okValue 0 9] := by
  decide

theorem test_vrspace_signed :
    answers (.vrspaceI8 0xFFFFFFFFFFFFFF80) = [okValue 0 2] ∧ answers (.vrspaceI16 0xFFFFFFFFFFFF8000) = [okValue 0 3] ∧
    answers (.vrspaceI32 0xFFFFFFFFFFFFFFC0) = [okValue 0 1] ∧
    answers (.vrspaceI64 0x8000000000000000) = [okValue 0 10] := by decide

/-- 2.4. -/
theorem test_venc_unsigned :
    answers (.vencU8 0x1FF) = [okBytes [0xFF, 0x01] 2] ∧ answers (.vencU16 0xFFFF) = [okBytes [0xFF, 0xFF, 0x03] 3] ∧
    answers (.vencU32 300) = [okBytes [0xAC, 0x02] 2] ∧
    answers (.vencU64 0x8000000000000000) =
      [okBytes [0x80, 0x80, 0x80, 0x80, 0x80, 0x80, 0x80, 0x80, 0x80, 0x01] 10] := by decide

theorem test_venc_signed :
    answers (.vencI8 0xFFFFFFFFFFFFFFBF) = [okBytes [0x81, 0x01] 2] ∧
    answers (.vencI16 0xFFFFFFFFFFFFFF6A) = [okBytes [0xAB, 0x02] 2] ∧
    answers (.vencI32 0xFFFFFFFFFFFF8138) = [okBytes [0x8F, 0xFB, 0x03] 3] ∧
    answers (.vencI64 0x000003D1EADDDA00) = [okBytes [0x80, 0xE8, 0xEE, 0xAD, 0xBD, 0xF4, 0x01] 7] := by decide

/-- 2.5, V12, V13, V17, V27 (with slen 11), V30, V33, V35, V37. -/
theorem test_vdec_values :
    answers (.vdecU8 (Lanes.ofList [0x81, 0x01, 0xAA]) 3) = [okValue 0x81 2] ∧
    answers (.vdecU16 (Lanes.ofList [0xFF, 0xFF, 0x03]) 3) = [okValue 0xFFFF 3] ∧
    answers (.vdecU32 (Lanes.ofList [0xAC, 0x02, 0x55]) 3) = [okValue 0x12C 2] ∧
    answers (.vdecU64 (Lanes.ofList (List.replicate 9 0xFF ++ [0x01])) 11) = [okValue 0xFFFFFFFFFFFFFFFF 10] ∧
    answers (.vdecI8 (Lanes.ofList [0xFF, 0x01]) 2) = [okValue 0xFFFFFFFFFFFFFF80 2] ∧
    answers (.vdecI16 (Lanes.ofList [0xAB, 0x02]) 2) = [okValue 0xFFFFFFFFFFFFFF6A 2] ∧
    answers (.vdecI32 (Lanes.ofList [0x8F, 0xFB, 0x03]) 3) = [okValue 0xFFFFFFFFFFFF8138 3] ∧
    answers (.vdecI64 (Lanes.ofList (List.replicate 9 0xFF ++ [0x01])) 10) = [okValue 0x8000000000000000 10] := by
  decide

/-- 2.5, V8, V11, V14, V18, V25, V28. -/
theorem test_vdec_none :
    answers (.vdecU8 (Lanes.ofList [0x80, 0x81]) 2) = [Response.plain .none] ∧
    answers (.vdecU8 Lanes.zero 0) = [Response.plain .none] ∧
    answers (.vdecU16 (Lanes.ofList [0xFF, 0xFF, 0x04]) 3) = [Response.plain .none] ∧
    answers (.vdecU32 (Lanes.ofList [0xFF, 0xFF, 0xFF, 0xFF, 0x10]) 5) = [Response.plain .none] ∧
    answers (.vdecU64 (Lanes.ofList (List.replicate 9 0x80 ++ [0x81])) 10) = [Response.plain .none] ∧
    answers (.vdecI8 (Lanes.ofList [0x80, 0x02]) 2) = [Response.plain .none] := by decide

/-! ### The decoder state machine, rows of 2.6 -/

/-- F1, line 3, and F6, line 5: any DINIT from a terminal state. -/
theorem test_dinit :
    (stepped (asked (decoding .i16 (.done (-32768) 3)) .dinitI8)).dec = .acc 0 0 ∧
    (stepped (asked (decoding .i16 (.done (-32768) 3)) .dinitI8)).decType = some .i8 ∧
    answers .dinitU8 = [okValue 0 0] := by decide

/-- F1, lines 5 and 6. -/
theorem test_dstep_done :
    (stepped (asked (decoding .u8 (.acc 0x7F 1)) (.dstep 0x01))).dec = .done 255 2 ∧
    (stepped (asked (decoding .u8 (.acc 0x7F 1)) (.dstep 0x01))).rspCh =
      [{ okValue 0xFF 2 with rtag := .done, rcons := true }] ∧
    (stepped (asked (decoding .u8 (.done 255 2)) (.dstep 0x00))).rspCh =
      [{ okValue 0xFF 2 with rtag := .done, rcons := false }] := by decide

/-- F3, F4, F7 (overflow on a continuation byte, byte M, payload 0x02 at shift 63). -/
theorem test_dstep_failed :
    (stepped (asked (decoding .u8 (.acc 0 1)) (.dstep 0x82))).dec = .failed .invalidData 2 ∧
    (stepped (asked (decoding .u8 (.acc 0 1)) (.dstep 0x81))).dec = .failed .invalidData 2 ∧
    (stepped (asked (decoding .u64 (.acc 0x7FFFFFFFFFFFFFFF 9)) (.dstep 0x02))).rspCh =
      [{ okValue 0 10 with rtag := .failed, rkind := .invalidData, rcons := true }] := by decide

/-- F5, lines 3 and 6, and X10. -/
theorem test_deof :
    (stepped (asked (decoding .u32 (.acc 0 1)) .deof)).rspCh =
      [{ okValue 0 1 with rtag := .failed, rkind := .unexpectedEof }] ∧
    (stepped (asked (decoding .i64 (.acc 0 0)) .deof)).dec = .failed .unexpectedEof 0 ∧
    answers .deof = [Response.plain .notInitialised] := by decide

/-! ### The adapters -/

/-- W1 to W4, the start: what is offered. -/
theorem test_wrvar_offers :
    (stepped (asked State.reset (.wrvarU32 300))).adp = .wr .u32 [0xAC, 0x02] ∧
    (stepped (asked State.reset (.wrvarU8 0))).adp = .wr .u8 [0x00] ∧
    (stepped (asked State.reset (.wrvarI32 0xFFFFFFFFFFFF8138))).adp = .wr .i32 [0x8F, 0xFB, 0x03] ∧
    (stepped (asked State.reset (.wrvarI32 0xFFFFFFFFFFFF8138))).writeReq = .waiting := by decide

/-- W1 and W5, the sink's answer. -/
theorem test_sink_answers :
    (stepped { writing with agenda := [.sink 0 .ok] }).snk = some [0xAC, 0x02] ∧
    (stepped { writing with agenda := [.sink 0 (.ioErr ⟨3⟩ 1)] }).snk = some [0xAC] ∧
    (stepped (written (.ioErr ⟨3⟩ 1))).rspCh = [{ Response.plain .ioError with rio := some ⟨3⟩ }] := by
  decide

/-- D1, D2 and D10, the ends. -/
theorem test_rdvar_ends :
    (stepped (reading .u32 (.done 300 2) .none)).rspCh = [okValue 0x12C 2] ∧
    (stepped (reading .u8 (.failed .unexpectedEof 0) .none)).rspCh = [Response.plain .unexpectedEof] ∧
    (stepped { reading .u32 (.failed .ioError 1) .none with io := some ⟨1⟩ }).rspCh =
      [{ Response.plain .ioError with rlen := 1, rio := some ⟨1⟩ }] := by decide

/-- D1, the second byte, and D4, the overflowing one, after which no request goes out. -/
theorem test_rdvar_takes_byte :
    (stepped (answering .u32 (.acc 0x2C 1) (.byte 0x02))).dec = .done 300 2 ∧
    (stepped (answering .u8 (.acc 0x7F 1) (.byte 0x02))).dec = .failed .invalidData 2 ∧
    (stepped (answering .u8 (.acc 0x7F 1) (.byte 0x02))).byteReq = .none ∧
    (stepped (answering .u8 (.acc 0 0) (.byte 0x80))).byteReq = .waiting := by decide

/-- R107, and P4's step 2: the answer and its taking are one step, the end one more. -/
theorem test_rdvar_step_count :
    (runSteps 2 (answering .u8 (.acc 0 0) (.byte 0x05))).map (·.rspCh) = some [okValue 5 1] ∧
    (runSteps 2 { writing with agenda := [.sink 0 .ok] }).map (·.rspCh) = some [okValue 0 2] := by decide

/-- A2, A3 and the order of R48: the held responses stand between CANCELLED and OK. -/
theorem test_abort :
    (stepped (asked { reading .u32 (.acc 0 1) .waiting with held := [Response.plain .busy] } .abort)).rspCh =
      [{ Response.plain .cancelled with rlen := 1 }, Response.plain .busy, Response.plain .ok] ∧
    (stepped (asked (reading .u8 (.acc 0 0) .waiting) .abort)).dec = .failed .cancelled 0 ∧
    answers .abort = [Response.plain .ok] := by decide

/-- A4: CANCELLED then OK, whatever prefix the sink holds. -/
theorem test_abort_write :
    (stepped (asked writing .abort)).rspCh = [Response.plain .cancelled, Response.plain .ok] := by decide

/-- X6 to X8: held behind the operation in flight, ILLEGAL_COMMAND before BUSY. -/
theorem test_in_flight :
    (stepped { reading .u8 (.acc 0 0) .waiting with reqCh := [full 0x4F] }).held = [Response.plain .illegalCommand] ∧
    (stepped { reading .u8 (.acc 0 0) .waiting with reqCh := [full 0x40] }).held = [Response.plain .busy] ∧
    (stepped { writing with reqCh := [full 0x60] }).held = [Response.plain .busy] := by decide

/-- A word placed on a state with an operation in flight is what the next step runs. -/
theorem test_withFetchWord :
    (stepped (State.withFetchWord State.reset 8 0x20)).rspCh = [okValue 0 2] ∧
    (stepped (State.withFetchWord (reading .u8 (.acc 0 0) .waiting) 8 0xB0)).rspCh.length = 2 ∧
    (stepped (State.withFetchWord (reading .u8 (.done 1 1) .none) 8 0x20)).rspCh = [okValue 0 2] := by decide

/-! ### The assembler (R52) -/

theorem test_assemble_refuses :
    Asm.assemble "venc.u8 256".toList = .refused .operandOutOfRange ∧
    Asm.assemble "zzenc.u8 1".toList = .refused .typeNotAllowed ∧
    Asm.assemble "vadd.u8 1".toList = .refused .unknownMnemonic ∧
    Asm.assemble "zzdec.i8 -1".toList = .refused .operandOutOfRange := by decide

theorem test_assemble_long_slice :
    Asm.assemble "vdec.u8 [1, 2, 3, 4, 5, 6, 7, 8, 9, 10, 11]".toList =
      .command ⟨0x50, 0, ⟨1, 2, 3, 4, 5, 6, 7, 8, 9, 10⟩, 10, 0⟩ := by decide

theorem test_assemble_program_line :
    Asm.assembleProgram ["deof".toList, "dstep 300".toList] = .refused 1 .operandOutOfRange ∧
    Asm.assembleProgram ["dstep 0x0F".toList] = .commands [⟨0x70, 0, Lanes.zero, 0, 0x0F⟩] := by decide

/-! ### Witnesses: for each obligation with hypotheses, values that meet them all -/

/-- CoreMoves, CoreFree and NextCommand hold together in `asked` states. -/
theorem witness_core_moves (i : Instr) : (asked State.reset i).CoreMoves [] ∧ (asked State.reset i).CoreFree :=
  ⟨.inr rfl, ⟨fun _ h => (by cases h), fun _ _ h => (by cases h)⟩⟩

theorem witness_core_moves_reading :
    (asked (reading .u8 (.acc 0 0) .waiting) .abort).CoreMoves [] ∧
      (asked (reading .u8 (.acc 0 0) .waiting) .abort).CoreFree :=
  ⟨.inr rfl, ⟨fun _ _ => rfl, fun _ _ h => (by cases h)⟩⟩

theorem witness_core_moves_writing :
    (asked writing .abort).CoreMoves [] ∧ (asked writing .abort).CoreFree :=
  ⟨.inr rfl, ⟨fun _ h => (by cases h), fun _ _ _ => rfl⟩⟩

/-- IllegalWordsAnswered, both cases: an illegal word taken in IDLE and in RD. -/
theorem witness_IllegalWordsAnswered :
    let idle : State := { State.reset with reqCh := [full 0xC0] }
    let busy : State := { reading .u8 (.acc 0 0) .waiting with reqCh := [full 0xC0] }
    decode (full 0xC0) = .illegal .reservedOp ∧
    (idle.CoreMoves [] ∧ idle.CoreFree ∧ idle.reqCh = [full 0xC0] ∧ idle.adp = .idle) ∧
    (busy.CoreMoves [] ∧ busy.CoreFree ∧ busy.reqCh = [full 0xC0] ∧ busy.adp ≠ .idle) := by
  refine ⟨by decide, ⟨.inl ⟨rfl, rfl⟩, ⟨fun _ h => (by cases h), fun _ _ h => (by cases h)⟩, rfl, rfl⟩,
    ⟨.inl ⟨rfl, rfl⟩, ⟨fun _ _ => rfl, fun _ _ h => (by cases h)⟩, rfl, ?_⟩⟩
  intro h
  cases h

theorem witness_StepRunsTakenCommand :
    (asked State.reset .deof).CoreMoves [] ∧ (asked State.reset .deof).CoreFree ∧
      (asked State.reset .deof).reqCh = encode .deof :: [] ∧ decode (encode .deof) = .instr .deof :=
  ⟨(witness_core_moves .deof).1, (witness_core_moves .deof).2, rfl, by decide⟩

theorem witness_CoreWaitsWithoutBound :
    (reading .u8 (.acc 0 0) .waiting).CoreMoves [] ∧ (reading .u8 (.acc 0 0) .waiting).CoreFree ∧
      (reading .u8 (.acc 0 0) .waiting).reqCh = [] :=
  ⟨.inl ⟨rfl, rfl⟩, ⟨fun _ _ => rfl, fun _ _ h => (by cases h)⟩, rfl⟩

/-- A fair run: a RDVAR whose source answers Eof, its end, and then an idle core for ever. -/
def fairRun : Nat → State
  | 0 => answering .u8 (.acc 0 0) .eof
  | 1 => stepped (answering .u8 (.acc 0 0) .eof)
  | _ => stepped (stepped (answering .u8 (.acc 0 0) .eof))

/-- CoreWaitsWithoutBound, the second clause, with a request that is answered and a program that is all issued. -/
theorem witness_fair_run :
    IsRun fairRun ∧ (fairRun 0).Inv ∧ Fair fairRun ∧ (fairRun 0).byteReq = .waiting ∧ (fairRun 0).program = [] := by
  refine ⟨?_, ?_, ?_, rfl, rfl⟩
  · intro i
    match i with
    | 0 => rfl
    | 1 => rfl
    | _ + 2 => rfl
  · refine ⟨show (0 : Count).toNat < maxSize .u8 ∧ (0 : Acc).toNat < 2 ^ VType.u8.bits ∧ (0 : Acc).toNat < 2 ^ 0 by decide,
      fun h => (by cases h), ?_, fun _ _ h => (by cases h), fun _ h => (by cases h; rfl)⟩
    intro T h
    cases h
    exact ⟨rfl, rfl, rfl, Nat.le_refl 1, by decide, by simp [fairRun, answering, reading, decoding, State.reset]⟩
  · intro i
    match i with
    | 0 => exact ⟨⟨1, by decide, fun _ => .inl rfl⟩, 0, by decide, fun h => (by cases h)⟩
    | 1 => exact ⟨⟨1, by decide, fun _ => .inl rfl⟩, 1, by decide, fun h => (by cases h)⟩
    | i + 2 => exact ⟨⟨i + 2, Nat.le_refl _, fun _ => .inl rfl⟩, i + 2, Nat.le_refl _, fun h => (by cases h)⟩

/-- AnswersOnly, DinitAt, WrvarAt, RdvarAt, BusyInFlight, BusyWhileInFlight: ADP idle, and each form of not idle. -/
theorem witness_adp :
    State.reset.adp = .idle ∧ (reading .u8 (.acc 0 0) .waiting).adp ≠ .idle ∧ writing.adp ≠ .idle ∧
      Instr.deof ≠ .abort := by decide

/-- OwnWord: a request with the word; the S = 0 ranges of R55 and R56 at their ends. -/
theorem witness_own_words :
    (full 0x04).cmd = 0x04 ∧ (full 3).cmd.toNat ≤ 3 ∧ (16 ≤ (full 16).cmd.toNat ∧ (full 16).cmd.toNat ≤ 19) ∧
      (16 ≤ (full 19).cmd.toNat ∧ (full 19).cmd.toNat ≤ 19) := by decide

/-- VdecAnswersSliceDecode, first clause: V7, [0x80, 0x00] reads as (0, 2) for u8, at n = M. -/
theorem witness_vdec_reads : Stated.SliceReads .u8 ((Lanes.ofList [0x80, 0x00]).toList.take (min 2 10)) 0 2 := by
  refine ⟨by decide, by decide, by decide, ?_, by decide, by decide⟩
  intro i b h hi
  match i, hi with
  | 0, _ => cases h; decide
  | 1, _ => cases h; decide

/-- VdecAnswersSliceDecode, second clause: V11, the empty slice reads as nothing. -/
theorem witness_vdec_reads_nothing :
    ¬ ∃ v n, Stated.SliceReads .u8 (Lanes.zero.toList.take (min (0 : BitVec 4).toNat 10)) v n := by
  rintro ⟨v, n, h1, -, h3, -⟩
  exact absurd (Nat.le_trans h1 h3) (by decide)

/-- EncodingRoundTrips, EncodingSizeBound, SignSymmetry: the ends of the domains. -/
theorem witness_in_domain :
    inDomain .u64 (2 ^ 64 - 1) = true ∧ inDomain .u64 (2 ^ 64) = false ∧ inDomain .i8 (-128) = true ∧
      inDomain .i8 127 = true ∧ inDomain .i8 128 = false ∧ inDomain .u8 0 = true ∧ inDomain .u8 (-1) = false := by
  decide

/-- TruncationRejected, at lengths 1 and M. -/
theorem witness_TruncationRejected :
    (∀ b ∈ ([0x80] : List Byte), b.getLsbD 7 = true) ∧ [(0x80 : Byte)].length ≤ maxSize .u8 ∧
      (∀ b ∈ ([0xFF, 0x80] : List Byte), b.getLsbD 7 = true) ∧ [(0xFF : Byte), 0x80].length = maxSize .u8 := by decide

/-- TrailingBytesTolerated: V12's slice without its last byte, and V5's. -/
theorem witness_TrailingBytesTolerated :
    sliceDecode .u8 [0x81, 0x01] = some (129, 2) ∧
      [(0xFF : Byte), 0x02].foldl (stepDec .u8) (.acc 0 0) = .failed .invalidData 2 := by decide

/-- EdgeCases, the M-th byte with bit 7 set, and L at both ends. -/
theorem witness_EdgeCases :
    [(0x00 : Byte)].length + 1 = maxSize .u8 ∧ (0x81 : Byte).getLsbD 7 = true ∧ 1 ≤ maxSize .u8 := by decide

/-- PaddedEncodingAccepted, padded to exactly M bytes. -/
theorem witness_PaddedEncodingAccepted :
    inDomain .u16 0 = true ∧ encodeVar .u16 0 = [] ++ [0x00] ∧ ([] : List Byte).length + 1 + 2 ≤ maxSize .u16 := by decide

/-- StepFunction, n = M - 1 with the greatest acc, for u8: overflow, terminator, byte M; and n = 0 for a byte that goes on. -/
theorem witness_StepFunction :
    ((1 : Count).toNat < maxSize .u8 ∧ (0x7F : Acc).toNat < 2 ^ (7 * (1 : Count).toNat) ∧
      (0x7F : Acc).toNat < 2 ^ VType.u8.bits) ∧
    2 ^ VType.u8.bits ≤ 0x7F + (0x02 : Byte).toNat % 128 * 2 ^ (7 * (1 : Count).toNat) ∧
    (0x7F + (0x01 : Byte).toNat % 128 * 2 ^ (7 * (1 : Count).toNat) < 2 ^ VType.u8.bits ∧ (0x01 : Byte).getLsbD 7 = false) ∧
    (0x7F + (0x81 : Byte).toNat % 128 * 2 ^ (7 * (1 : Count).toNat) < 2 ^ VType.u8.bits ∧ (0x81 : Byte).getLsbD 7 = true ∧
      (1 : Count).toNat + 1 = maxSize .u8) ∧
    (0 + (0xFF : Byte).toNat % 128 * 2 ^ (7 * (0 : Count).toNat) < 2 ^ VType.u8.bits ∧ (0xFF : Byte).getLsbD 7 = true ∧
      (0 : Count).toNat + 1 < maxSize .u8) := by decide

/-- DstepStepsDec and DeofEndsDec: DEC.type unset and set. -/
theorem witness_dec_types :
    (State.reset.adp = .idle ∧ State.reset.decType = none) ∧
      (decoding .u8 (.acc 0 0)).adp = .idle ∧ (decoding .u8 (.acc 0 0)).decType = some .u8 := by decide

/-- TerminalStatesAbsorb, second clause. -/
theorem witness_TerminalStatesAbsorb :
    (decoding .u8 (.done 255 2)).adp = .idle ∧ (decoding .u8 (.done 255 2)).decType = some .u8 ∧
      (decoding .u8 (.done 255 2)).dec.terminal = true := by decide

/-- TerminalStatesAbsorb, third clause: DINIT, RDVAR and reset leave a terminal state. -/
theorem witness_terminal_left :
    let d := asked (decoding .u8 (.done 255 2)) .dinitU8
    let r := asked (decoding .u8 (.done 255 2)) .rdvarU8
    let z : State := { decoding .u8 (.done 255 2) with agenda := [.reset] }
    (step d = .next (stepped d) ∧ d.dec.terminal = true ∧ (stepped d).dec ≠ d.dec) ∧
    (step r = .next (stepped r) ∧ r.dec.terminal = true ∧ (stepped r).dec ≠ r.dec) ∧
    (step z = .next (stepped z) ∧ z.dec.terminal = true ∧ (stepped z).dec ≠ z.dec) :=
  ⟨⟨rfl, by decide⟩, ⟨rfl, by decide⟩, ⟨rfl, by decide⟩⟩

/-- DecTypeWrites, all three ways. -/
theorem witness_DecTypeWrites :
    let d := asked State.reset .dinitU8
    let r := asked State.reset .rdvarI64
    let z : State := { decoding .u8 (.acc 0 0) with agenda := [.reset] }
    (step d = .next (stepped d) ∧ (stepped d).decType ≠ d.decType) ∧
    (step r = .next (stepped r) ∧ (stepped r).decType ≠ r.decType) ∧
    (step z = .next (stepped z) ∧ (stepped z).decType ≠ z.decType) :=
  ⟨⟨rfl, by decide⟩, ⟨rfl, by decide⟩, ⟨rfl, by decide⟩⟩

/-- DecStateTable, the rows for commands. -/
theorem witness_DecStateTable_commands :
    let a := asked (decoding .u8 (.acc 0 0)) (.dstep 0x80)
    let e := asked (decoding .u8 (.acc 0 1)) .deof
    let x := asked (reading .u8 (.acc 0 1) .waiting) .abort
    (step a = .next (stepped a) ∧ (stepped a).dec ≠ a.dec) ∧
    (step e = .next (stepped e) ∧ (stepped e).dec ≠ e.dec) ∧
    (step x = .next (stepped x) ∧ (stepped x).dec ≠ x.dec) :=
  ⟨⟨rfl, by decide⟩, ⟨rfl, by decide⟩, ⟨rfl, by decide⟩⟩

/-- DecStateTable, the rows for source answers. -/
theorem witness_DecStateTable_answers :
    let b := answering .u8 (.acc 0 0) (.byte 0x01)
    let e := answering .u8 (.acc 0 0) .eof
    let x := answering .u8 (.acc 0 0) (.ioErr ⟨1⟩)
    (step b = .next (stepped b) ∧ (stepped b).dec ≠ b.dec) ∧
    (step e = .next (stepped e) ∧ (stepped e).dec ≠ e.dec) ∧
    (step x = .next (stepped x) ∧ (stepped x).dec ≠ x.dec) :=
  ⟨⟨rfl, by decide⟩, ⟨rfl, by decide⟩, ⟨rfl, by decide⟩⟩

/-- WrvarEndsWithSinkAnswer, both answers. -/
theorem witness_WrvarEndsWithSinkAnswer (a : SnkAnswer) :
    let s : State := { writing with agenda := [.sink 0 a, .core] }
    s.adp = .wr .u32 [0xAC, 0x02] ∧ s.writeReq = .waiting ∧ s.snk = some [] ∧ s.agenda = .sink 0 a :: .core :: [] :=
  ⟨rfl, rfl, rfl, rfl⟩

/-- RdvarTakesOracleAnswer, each answer. -/
theorem witness_RdvarTakesOracleAnswer (a : SrcAnswer) :
    let s := answering .u32 (.acc 0 1) a
    s.adp = .rd .u32 ∧ s.dec.terminal = false ∧ s.byteReq = .waiting ∧ s.src = some (.oracle []) ∧
      s.agenda = .source 0 a :: [] :=
  ⟨rfl, rfl, rfl, rfl, rfl⟩

/-- RdvarEndsWhenTerminal, each row of R80. -/
theorem witness_RdvarEndsWhenTerminal (d : DecState) :
    (reading .u8 d .none).adp = .rd .u8 ∧ (reading .u8 d .none).CoreMoves [] ∧ (reading .u8 d .none).dec = d :=
  ⟨rfl, .inl ⟨rfl, rfl⟩, rfl⟩

/-- SliceBackedReadAgrees: D1's source, which has a value, and D3's, which has none. -/
theorem witness_SliceBackedReadAgrees :
    let s : State := { State.reset with src := some (.slice [0xAC, 0x02, 0x07] 0) }
    s.adp = .idle ∧ s.src = some (.slice [0xAC, 0x02, 0x07] 0) ∧
      sliceDecode .u32 ([0xAC, 0x02, 0x07].drop 0) = some (300, 2) ∧ sliceDecode .u32 ([0x80, 0x80].drop 0) = none := by
  decide

/-- AbortCancels, the clauses for RD and WR, with and without a sink (the one for IDLE is witness_adp). -/
theorem witness_AbortCancels :
    ((reading .u8 (.acc 0 0) .waiting).adp = .rd .u8 ∧ (reading .u8 (.acc 0 0) .waiting).CoreFree) ∧
    writing.adp = .wr .u32 [0xAC, 0x02] ∧ writing.writeReq = .waiting ∧
      writing.snk = some [] ∧ State.snk { writing with snk := none } = none :=
  ⟨⟨rfl, fun _ _ => rfl, fun _ _ h => (by cases h)⟩, by decide⟩

/-- AbortCancels, the clause of a sink's answer first, Ok and IoErr. -/
theorem witness_AbortCancels_answered (a : SnkAnswer) :
    (asked (written a) .abort).adp = .wr .u32 [0xAC, 0x02] ∧
      (asked (written a) .abort).CoreMoves [] ∧
      Stated.NextCommand (asked (written a) .abort) .abort ∧
      (asked (written a) .abort).ans = some a :=
  ⟨rfl, .inr rfl, ⟨encode .abort, [], rfl, by decide⟩, rfl⟩

/-- AbortCancels, the clause of a byte delivered first. -/
theorem witness_AbortCancels_byte :
    let s : State :=
      { answering .u8 (.acc 0 0) (.byte 0x80) with
        agenda := [.source 0 (.byte 0x80), .core], reqCh := [encode .abort] }
    s.adp = .rd .u8 ∧ s.dec.terminal = false ∧ s.byteReq = .waiting ∧ s.src = some (.oracle []) ∧
      s.agenda = .source 0 (.byte 0x80) :: .core :: [] ∧ s.reqCh = encode .abort :: [] ∧
      decode (encode .abort) = .instr .abort ∧ (stepDec .u8 s.dec 0x80).terminal = false := by decide

/-- NoValueWithoutOk: a step with a new response that is not OK. -/
theorem witness_NoValueWithoutOk :
    let s := asked State.reset .deof
    step s = .next (stepped s) ∧ Response.plain .notInitialised ∈ (stepped s).rspCh ++ (stepped s).held ++ (stepped s).received ∧
      Response.plain .notInitialised ∉ s.rspCh ++ s.held ++ s.received ∧ (Response.plain .notInitialised).status ≠ .ok :=
  ⟨rfl, by decide⟩

theorem witness_CodecCommandsHaveNoState :
    ∃ t, exec (.venc .u8 5) State.reset = .next t ∧
      Instr.venc .u8 5 ∈ [.zzenc .w8 5, .zzdec .w8 5, .vmaxsz .u8, .vrspace .u8 5, .venc .u8 5, .vdec .u8 Lanes.zero 0] :=
  ⟨_, rfl, by decide⟩

theorem witness_UpperOperandBitsIgnored :
    (0x1FF : Val).setWidth VType.u8.bits = (0xFF : Val).setWidth VType.u8.bits ∧ (0x1FF : Val) ≠ 0xFF := by decide

/-- InvariantKept, a state of each form of ADP: reset, ... -/
theorem witness_inv_idle : State.reset.Inv ∧ step State.reset = .next (stepped State.reset) :=
  ⟨by constructor <;> simp [State.reset, decWithin], rfl⟩

/-- ... a read in progress whose source answers, ... -/
theorem witness_inv_reading :
    (answering .u8 (.acc 0x7F 1) (.byte 0x01)).Inv ∧
      step (answering .u8 (.acc 0x7F 1) (.byte 0x01)) = .next (stepped (answering .u8 (.acc 0x7F 1) (.byte 0x01))) := by
  refine ⟨⟨show (1 : Count).toNat < maxSize .u8 ∧ (0x7F : Acc).toNat < 2 ^ VType.u8.bits ∧ (0x7F : Acc).toNat < 2 ^ 7 by decide,
    fun h => (by cases h), ?_, fun _ _ h => (by cases h), fun _ h => (by cases h; rfl)⟩, rfl⟩
  intro T h
  cases h
  exact ⟨rfl, rfl, rfl, Nat.le_refl 1, by decide, by simp [answering, reading, decoding, State.reset]⟩

/-- ... and a write in progress. -/
theorem witness_inv_writing : writing.Inv ∧ step writing = .next (stepped writing) := by
  refine ⟨⟨rfl, fun h => (by cases h), fun _ h => (by cases h), ?_, fun _ h => (by cases h)⟩, rfl⟩
  intro T o h
  cases h
  decide

/-- OneResponsePerCommand and HeldResponsesFollow, first clause: no reset, a command answered. -/
theorem witness_OneResponsePerCommand :
    let s := asked State.reset .vmaxszU8
    step s = .next (stepped s) ∧ ¬ Stated.ResetMoves s ∧ s.adp = .idle :=
  ⟨rfl, fun ⟨_, h⟩ => (by cases h), rfl⟩

/-- HeldResponsesFollow, second clause: BUSY held. -/
theorem witness_held :
    let s := asked (reading .u8 (.acc 0 0) .waiting) .vmaxszU8
    step s = .next (stepped s) ∧ ¬ Stated.ResetMoves s ∧ s.adp ≠ .idle ∧ (stepped s).adp ≠ .idle :=
  ⟨rfl, fun ⟨_, h⟩ => (by cases h), by decide⟩

/-- HeldResponsesFollow, third clause: the read ends. -/
theorem witness_held_follow :
    let s := { reading .u8 (.done 5 1) .none with held := [Response.plain .busy] }
    step s = .next (stepped s) ∧ ¬ Stated.ResetMoves s ∧ s.adp ≠ .idle ∧ (stepped s).adp = .idle ∧
      (stepped s).rspCh = [okValue 5 1, Response.plain .busy] :=
  ⟨rfl, fun ⟨_, h⟩ => (by cases h), by decide⟩

/-- FaultsOnlyForBreaches: each breach of R97: a second answer, an answer to a withdrawn request, a shared source. -/
theorem witness_FaultsOnlyForBreaches :
    step { written .ok with agenda := [.sink 0 .ok] } = .fault .sinkAnswerNotRequested ∧
    step { reading .u8 (.acc 0 0) .waiting with src := some (.oracle []), agenda := [.foreignRead] } =
      .fault .sharedSource ∧
    step { stepped (asked (reading .u8 (.acc 0 0) .waiting) .abort) with
      src := some (.oracle []), agenda := [.source 0 .eof] } = .fault .sourceAnswerNotRequested :=
  ⟨rfl, rfl, rfl⟩

/-- R97 while a newer request is outstanding: a second answer to the byte request before, and a late answer to a write request
that an ABORT withdrew. -/
theorem test_late_answers_fault :
    step { stepped (answering .u8 (.acc 0 0) (.byte 0x80)) with agenda := [.source 1 (.byte 0x01)] } =
      .fault .sourceAnswerNotRequested ∧
    step { stepped (asked (stepped (asked writing .abort)) (.wrvarU8 5)) with snk := some [], agenda := [.sink 1 .ok] } =
      .fault .sinkAnswerNotRequested :=
  ⟨rfl, rfl⟩

/-- FaultsOnlyForBreaches, the refusals: an answer that was never asked for, and a cursor past the end. -/
theorem witness_refused_moves :
    step { State.reset with src := some (.oracle []), agenda := [.source 0 .eof] } = .refused .answerNeverAsked ∧
    step { State.reset with snk := some [], agenda := [.sink 0 .ok] } = .refused .answerNeverAsked ∧
    step { State.reset with agenda := [.attachSource (.slice [1] 2)] } = .refused .attachBadCursor :=
  ⟨rfl, rfl, rfl⟩

/-- AbsentAgentsAndOtherReaders: no source with a RDVAR in flight, no sink with a WRVAR in flight. -/
theorem witness_absent_agents :
    let r (t : Turn) : State := { reading .u8 (.acc 0 0) .waiting with agenda := [t] }
    let w : State := { writing with snk := none, agenda := [.sink 0 .ok] }
    ((r (.source 0 .eof)).agenda = .source 0 .eof :: [] ∧ (r (.source 0 .eof)).src = none) ∧
    (w.agenda = .sink 0 .ok :: [] ∧ w.snk = none) ∧
    (r .foreignRead).agenda = .foreignRead :: [] ∧ (r .foreignRead).src = none := by decide

/-- AbsentAgentsAndOtherReaders: another reader at an oracle, at the last byte of a slice-backed source, and at its end, with a
WRVAR in flight. -/
theorem witness_other_readers :
    let s (src : Source) : State := { writing with src := some src, agenda := [.foreignRead] }
    (∀ T, (s (.oracle [])).adp ≠ .rd T) ∧ (s (.oracle [])).agenda = .foreignRead :: [] ∧
    (s (.oracle [])).src = some (.oracle []) ∧
    ((s (.slice [1] 0)).src = some (.slice [1] 0) ∧ 0 < [(1 : Byte)].length) ∧
    (s (.slice [1] 1)).src = some (.slice [1] 1) ∧ [(1 : Byte)].length ≤ 1 :=
  ⟨fun _ h => (by cases h), by decide⟩

theorem witness_SinkGrowsByOfferedBytes :
    let s : State := { writing with agenda := [.sink 0 .ok] }
    step s = .next (stepped s) ∧ s.snk = some [] ∧ (stepped s).snk ≠ s.snk :=
  ⟨rfl, by decide⟩

theorem witness_SourceMovesOnlyWhenAsked :
    let s : State := { reading .u8 (.acc 0 0) .waiting with src := some (.slice [0x01] 0), agenda := [.source 0 .eof] }
    step s = .next (stepped s) ∧ (stepped s).src ≠ s.src :=
  ⟨rfl, by decide⟩

/-- SliceBackedSourceAnswers, the last byte and the end. -/
theorem witness_SliceBackedSourceAnswers :
    let s (cur : Nat) : State :=
      { reading .u8 (.acc 0 0) .waiting with src := some (.slice [0x01] cur), agenda := [.source 0 .eof] }
    ((s 0).agenda = .source 0 .eof :: [] ∧ (s 0).src = some (.slice [0x01] 0) ∧ (s 0).adp = .rd .u8 ∧ (s 0).byteReq = .waiting ∧
      0 < [(0x01 : Byte)].length) ∧
    ((s 1).src = some (.slice [0x01] 1) ∧ (s 1).byteReq = .waiting ∧ [(0x01 : Byte)].length ≤ 1) := by decide

/-- BlockingRequesterWaits with ADP IDLE: a RDVAR on the channel, another command there, and no command left. -/
theorem witness_blocking_idle :
    let s (q : Request) : State :=
      { State.reset with blocking := true, reqCh := [q], program := [full 0xB0], agenda := [.issue] }
    ((s (full 0xA0)).adp = .idle ∧ ∃ q ∈ (s (full 0xA0)).reqCh, Stated.IsAdapterCommand q) ∧
    (∀ q ∈ (s (full 0x80)).reqCh, ¬ Stated.IsAdapterCommand q) ∧
    State.program { State.reset with agenda := [.issue] } = [] := by
  refine ⟨⟨rfl, full 0xA0, .head _, .u8, .inl (by decide)⟩, ?_, rfl⟩
  intro q hq
  obtain rfl : q = full 0x80 := List.mem_singleton.1 hq
  rintro ⟨⟨_ | _ | _ | _, _ | _⟩, h | ⟨val, h⟩⟩ <;>
    (rw [show decode (full 0x80) = .instr .deof by decide] at h; cases h)

/-- RequesterKindUnseen: a step that is not an issuing. -/
theorem witness_RequesterKindUnseen (ag : List Turn) :
    (answering .u8 (.acc 0 0) .eof).agenda ≠ .issue :: ag := by
  intro h
  cases h

/-- ResetMeetsLaunchPremises: a source that may be attached. -/
theorem witness_ResetMeetsLaunchPremises : (Source.slice [1, 2] 2).cursorOk = true := by decide

/-- Premise 4 of R110 in its second form: a start with an explicit DEC value. -/
theorem witness_launch_from : (decoding .u8 (.acc 0x7F 1)).LaunchFrom (some .u8) (.acc 0x7F 1) :=
  ⟨⟨rfl, rfl, rfl⟩, ⟨rfl, rfl, rfl⟩, ⟨rfl, rfl⟩⟩

/-- BlockingRequesterWaits in flight, for both kinds. -/
theorem witness_BlockingRequesterWaits :
    let s (b : Bool) : State :=
      { reading .u8 (.acc 0 0) .waiting with blocking := b, program := [full 0xB0], agenda := [.issue] }
    (s true).agenda = .issue :: [] ∧ (s true).program = full 0xB0 :: [] ∧ (s true).blocking = true ∧
      (s true).adp ≠ .idle ∧ (s false).blocking = false := by decide

theorem witness_OldestResponseRead :
    let s : State := { State.reset with rspCh := [Response.plain .ok], agenda := [.readResponse] }
    s.agenda = .readResponse :: [] ∧ s.rspCh = Response.plain .ok :: [] := by decide

/-- AttachOnlyWhileIdle, idle and in flight, a cursor at the end of its source. -/
theorem witness_AttachOnlyWhileIdle :
    let s (t : Turn) : State := { State.reset with agenda := [t] }
    let b (t : Turn) : State := { writing with agenda := [t] }
    ((s (.attachSink [])).agenda = .attachSink [] :: [] ∧ (s (.attachSink [])).adp = .idle) ∧
    ((b (.attachSink [])).agenda = .attachSink [] :: [] ∧ (b (.attachSink [])).adp ≠ .idle) ∧
    ((s (.attachSource (.slice [1] 1))).adp = .idle ∧ (Source.slice [1] 1).cursorOk = true ∧
      (Source.slice [1] 2).cursorOk = false) ∧
    (b (.attachSource (.slice [1] 1))).adp ≠ .idle := by decide

theorem witness_ResetDropsEverything :
    let s : State := { writing with agenda := [.reset] }
    s.agenda = .reset :: [] ∧ s.adp.offered = [0xAC, 0x02] := by decide

theorem witness_AssembledCommandsWellFormed :
    Asm.assemble "venc.i8 -128".toList = .command ⟨0x44, 0xFFFFFFFFFFFFFF80, Lanes.zero, 0, 0⟩ := by decide

end Sys2Proof.Tests
end

section
/-! Proofs of the family 00_scope: how one step reads the agenda (R7, log entry 1), takes a request (R32) and reads a
response (R18). -/

namespace Sys2Proof.Machine

/-- On its move a core that owes nothing takes the oldest request off the channel and runs it (R32). -/
theorem coreTurn_of_cons (s : State) (r : Request) (rest : List Request) (owesNothing : s.coreDue = none)
    (oldest : s.reqCh = r :: rest) : coreTurn s = runCommand r { s with reqCh := rest } := by
  simp only [coreTurn, owesNothing, oldest]

/-- A free core that has the move runs the oldest request, legal or not (R32; what is owed comes first: log entry 5). -/
theorem step_of_coreMoves_cons (s : State) (ag : List Turn) (r : Request) (rest : List Request) (moves : s.CoreMoves ag)
    (free : s.CoreFree) (oldest : s.reqCh = r :: rest) :
    step s = runCommand r { s with agenda := ag, reqCh := rest } := by
  rw [step_of_coreMoves s ag moves]
  exact coreTurn_of_cons _ r rest (State.coreDue_of_coreFree s ag free) oldest

/-- A request that decodes to a command runs that command: check 1 of R84 passes. -/
theorem runCommand_of_instr (r : Request) (i : Instr) (s : State) (legal : decode r = .instr i) :
    runCommand r s = exec i s := by
  simp only [runCommand, legal]

/-- Settles O5: the core's move takes the oldest request, and the decoder's verdict on it is the command. -/
theorem stepRunsTakenCommand : Obligations.StepRunsTakenCommand := by
  unfold Obligations.StepRunsTakenCommand
  intro s ag r rest i moves free oldest legal
  calc step s = runCommand r { s with agenda := ag, reqCh := rest } :=
        step_of_coreMoves_cons s ag r rest moves free oldest
    _ = exec i { s with agenda := ag, reqCh := rest } := runCommand_of_instr r i _ legal

/-- A turn at the head of the agenda is the next move. -/
theorem step_of_agenda_cons (s : State) (t : Turn) (ag : List Turn) (next : s.agenda = t :: ag) :
    step s = takeTurn t { s with agenda := ag } := by
  simp only [step, nextMove, next]

/-- Reading moves the oldest response to the end of those read (R18, log entry 22). -/
theorem readTurn_of_cons (s : State) (r : Response) (rest : List Response) (oldest : s.rspCh = r :: rest) :
    readTurn s = { s with rspCh := rest, received := s.received ++ [r] } := by
  simp only [readTurn, oldest]

/-- Settles O54: the turn at the head of the agenda is the requester's, and it reads the head of the channel. -/
theorem oldestResponseRead : Obligations.OldestResponseRead := by
  unfold Obligations.OldestResponseRead
  intro s ag r rest turn oldest
  calc step s = .next (readTurn { s with agenda := ag }) := step_of_agenda_cons s .readResponse ag turn
    _ = .next { s with agenda := ag, rspCh := rest, received := s.received ++ [r] } :=
        congrArg _ (readTurn_of_cons { s with agenda := ag } r rest oldest)

end Sys2Proof.Machine
end

section
/-! Proofs of the family 10_state: what the codec's numbers stay within (R4, R5, R16, R38), that every operation of the
machine keeps the invariant (R16 to R19), who writes DEC.type (R12), and the frame of the pure commands (R20). -/

namespace Sys2Proof.Machine

/-! ### The bounds of the datapath -/

/-- What a signed word of W bits reads as lies in the domain of iW (R5). -/
theorem inDomain_toInt (T : VType) (hs : T.signed = true) (x : BitVec T.bits) : inDomain T x.toInt = true := by
  simp [inDomain, hs, x.le_toInt, x.toInt_lt]

/-- A number below 2^W lies in the domain of uW (R5). -/
theorem inDomain_natCast (T : VType) (hu : T.signed = false) (n : Nat) (hn : n < 2 ^ T.bits) :
    inDomain T n = true := by
  have : (n : Int) < 2 ^ T.bits := by exact_mod_cast hn
  simp [inDomain, hu, this]

/-- An operand is a value of its type, whatever val holds (R46). -/
theorem operand_inDomain (T : VType) (val : Val) : inDomain T (operand T val) = true := by
  unfold operand
  split
  next signed => exact inDomain_toInt T signed _
  next unsigned => exact inDomain_natCast T (Bool.eq_false_iff.2 unsigned) _ (BitVec.isLt _)

/-- The value of an unsigned form below 2^W is a value of the type (R41, R67). -/
theorem valueOf_inDomain (T : VType) (U : Nat) (hU : U < 2 ^ T.bits) : inDomain T (valueOf T U) = true := by
  unfold valueOf
  split
  next signed => exact inDomain_toInt T signed _
  next unsigned => exact inDomain_natCast T (Bool.eq_false_iff.2 unsigned) U hU

/-- The unsigned form of a value of type T has at most W bits (R5, R41). -/
theorem unsignedForm_lt (T : VType) (v : Int) (hv : inDomain T v = true) : unsignedForm T v < 2 ^ T.bits := by
  unfold unsignedForm
  split
  next => exact BitVec.isLt _
  next unsigned =>
    simp only [inDomain, if_neg unsigned, Bool.and_eq_true, decide_eq_true_eq] at hv
    have : (2 ^ T.bits : Nat) = (2 : Int) ^ T.bits := by norm_cast
    omega

/-- The encoder writes at least one byte (R61). -/
theorem one_le_length_encodeGroups (fuel u : Nat) : 1 ≤ (encodeGroups (fuel + 1) u).length := by
  unfold encodeGroups
  split <;> simp

/-- The encoder writes no more than k bytes for a number that k groups hold (R60, R61). -/
theorem length_encodeGroups_le (fuel u k : Nat) (hk : 1 ≤ k) (hu : u < 2 ^ (7 * k)) :
    (encodeGroups fuel u).length ≤ k := by
  induction fuel generalizing u k with
  | zero => simp [encodeGroups]
  | succ fuel ih =>
    obtain ⟨k, rfl⟩ : ∃ j, k = j + 1 := ⟨k - 1, by omega⟩
    have hu' : u / 128 < 2 ^ (7 * k) := by
      rw [Nat.mul_succ, Nat.pow_add] at hu
      omega
    unfold encodeGroups
    split
    next more =>
      have hk' : 1 ≤ k := Nat.pos_of_ne_zero fun h => more (by simpa [h] using hu')
      simpa using ih (u / 128) k hk' hu'
    next => simp

/-- An encoding has 1 to M(T) bytes (R38, R61). -/
theorem encodeVar_length_bounds (T : VType) (v : Int) (hv : inDomain T v = true) :
    1 ≤ (encodeVar T v).length ∧ (encodeVar T v).length ≤ maxSize T := by
  have hU : unsignedForm T v < 2 ^ (7 * maxSize T) :=
    (unsignedForm_lt T v hv).trans_le (Nat.pow_le_pow_right (by decide) (bits_le_groups T))
  have hM := two_le_maxSize T
  exact ⟨one_le_length_encodeGroups 9 _, length_encodeGroups_le 10 _ _ (by omega) hU⟩

/-! ### DEC stays within R16 -/

/-- ACC(0, 0) is within R16 at every type, and is what R21 has with none. -/
theorem decWithin_start (T : Option VType) : decWithin T (.acc 0 0) := by
  cases T with
  | none => rfl
  | some T => exact ⟨Nat.two_pos.trans_le (two_le_maxSize T), Nat.two_pow_pos _, Nat.two_pow_pos _⟩

/-- The count is at most M(T) in every DEC.state (R16). -/
theorem count_le_of_decWithin {T : VType} {d : DecState} (h : decWithin (some T) d) : d.count.toNat ≤ maxSize T := by
  cases d with
  | acc bits n => exact h.1.le
  | done v n => exact h.2.1
  | failed k n => exact h

/-- One more payload needs seven more bits of the accumulator (R16, R67). -/
theorem acc_or_payload_lt (bits : Acc) (n : Count) (b : Byte) (hn : n.toNat < 10) (hb : bits.toNat < 2 ^ (7 * n.toNat)) :
    (bits ||| ((payload b).setWidth 128 <<< (7 * n.toNat))).toNat < 2 ^ (7 * (n.toNat + 1)) := by
  have group : b.toNat % 128 * 2 ^ (7 * n.toNat) ≤ 127 * 2 ^ (7 * n.toNat) := Nat.mul_le_mul_right _ (by omega)
  rw [acc_or_payload_toNat bits n b hn hb, Nat.mul_succ, Nat.pow_add]
  omega

/-- Step_T keeps DEC within R16 (R67). -/
theorem stepDec_within (T : VType) (d : DecState) (b : Byte) (h : decWithin (some T) d) :
    decWithin (some T) (stepDec T d b) := by
  cases d with
  | done v n => exact h
  | failed k n => exact h
  | acc bits n =>
    obtain ⟨hn, -, hacc⟩ := h
    have hn' := count_succ_toNat T n hn
    have hacc' := acc_or_payload_lt bits n b (hn.trans_le (maxSize_le_ten T)) hacc
    simp only [stepDec]
    split
    next => exact hn'.trans_le hn
    next fits =>
      split
      next => exact ⟨by omega, hn'.trans_le hn, valueOf_inDomain T _ (Nat.lt_of_not_le fits)⟩
      next =>
        split
        next => exact hn'.trans_le hn
        next short => exact ⟨by omega, Nat.lt_of_not_le fits, hn' ▸ hacc'⟩

/-- End-of-input keeps DEC within R16 (R68). -/
theorem eofDec_within (T : VType) (d : DecState) (h : decWithin (some T) d) : decWithin (some T) (eofDec d) := by
  cases d with
  | acc bits n => exact count_le_of_decWithin h
  | done v n => exact h
  | failed k n => exact h

/-- An I/O error keeps DEC within R16 (R69). -/
theorem ioErrDec_within (T : VType) (d : DecState) (h : decWithin (some T) d) : decWithin (some T) (ioErrDec d) := by
  cases d with
  | acc bits n => exact count_le_of_decWithin h
  | done v n => exact h
  | failed k n => exact h

/-- Every answer of the source keeps DEC within R16 (R79). -/
theorem answerDec_within (T : VType) (d : DecState) (a : SrcAnswer) (h : decWithin (some T) d) :
    decWithin (some T) (answerDec T d a) := by
  cases a with
  | byte b => exact stepDec_within T d b h
  | eof => exact eofDec_within T d h
  | ioErr e => exact ioErrDec_within T d h

/-- A byte never makes DEC FAILED(IO_ERROR, n) (R67, R69). -/
theorem stepDec_acc_ne_ioError (T : VType) (bits : Acc) (n m : Count) (b : Byte) :
    stepDec T (.acc bits n) b ≠ .failed .ioError m := by
  simp only [stepDec]
  split
  · simp
  · split
    · simp
    · split <;> simp

/-- A payload comes with an answer exactly if the answer makes DEC FAILED(IO_ERROR, n) (R79). -/
theorem answerIo_isSome_iff (T : VType) (bits : Acc) (n : Count) (a : SrcAnswer) :
    (answerIo a).isSome = true ↔ ∃ m, answerDec T (.acc bits n) a = .failed .ioError m := by
  cases a with
  | byte b => simp [answerIo, answerDec, stepDec_acc_ne_ioError]
  | eof => simp [answerIo, answerDec, eofDec]
  | ioErr e => simp [answerIo, answerDec, ioErrDec]

/-! ### The source's cursor stays within its bytes (R19) -/

/-- An answer leaves the cursor within the bytes (R26). -/
theorem Source.answer_cursorOk (src : Source) (draw : SrcAnswer) (h : src.cursorOk = true) :
    (src.answer draw).2.cursorOk = true := by
  cases src with
  | oracle delivered => cases draw <;> rfl
  | slice S cur =>
    simp only [Source.answer]
    split
    next b delivers =>
      obtain ⟨inside, -⟩ := List.getElem?_eq_some_iff.1 delivers
      exact decide_eq_true inside
    next => exact h

/-- Another reader leaves the cursor within the bytes (R26, log entry 13). -/
theorem Source.consumed_cursorOk (src : Source) (h : src.cursorOk = true) : src.consumed.cursorOk = true := by
  cases src with
  | oracle delivered => rfl
  | slice S cur => exact Source.answer_cursorOk _ _ h

/-! ### Every operation keeps the invariant -/

/-- With ADP IDLE the invariant asks for DEC and the cursor, and that nothing is outstanding, kept or held (R18). -/
theorem State.inv_of_idle {s : State} (idle : s.adp = .idle) (dec : decWithin s.decType s.dec)
    (clear : s.held = [] ∧ s.io = none ∧ s.ans = none ∧ s.byteReq = .none ∧ s.writeReq = .none)
    (cursor : ∀ src, s.src = some src → src.cursorOk = true) : s.Inv :=
  ⟨dec, fun _ => clear, by simp [idle], by simp [idle], cursor⟩

/-- The invariant says nothing of the channels, the requester, the sink's data, the agenda and the draws. -/
theorem State.Inv.beside {s : State} (h : s.Inv) {reqCh program : List Request} {rspCh received : List Response}
    {blocking : Bool} {snk : Option (List Byte)} {agenda : List Turn} {draws : Nat} :
    State.Inv { s with
      reqCh := reqCh, program := program, rspCh := rspCh, received := received, blocking := blocking, snk := snk
      agenda := agenda, draws := draws } :=
  ⟨h.dec, h.idle, h.reading, h.writing, h.cursor⟩

/-- A source within its bytes may stand in the place of any other (R19). -/
theorem State.Inv.setSrc {s : State} (h : s.Inv) {src : Source} (cursor : src.cursorOk = true) :
    State.Inv { s with src := some src } :=
  ⟨h.dec, h.idle, h.reading, h.writing, fun _ e => Option.some.inj e ▸ cursor⟩

/-- With nothing in flight DEC may become anything within R16. -/
theorem State.Inv.setDec {s : State} (h : s.Inv) (idle : s.adp = .idle) {T : Option VType} {d : DecState}
    (within : decWithin T d) : State.Inv { s with decType := T, dec := d } :=
  inv_of_idle idle within (h.idle idle) h.cursor

/-- Placing a response keeps the invariant: it is held only in flight (R48). -/
theorem State.Inv.respond {s : State} {r : Response} (h : s.Inv) : (s.respond r).Inv := by
  by_cases idle : s.adp = .idle
  · rw [s.respond_of_idle r idle]
    exact h.beside
  · rw [s.respond_of_busy r idle]
    exact ⟨h.dec, fun e => absurd e idle, h.reading, h.writing, h.cursor⟩

/-- What ends an operation leaves nothing outstanding, kept or held (R48), so DEC and the cursor are all it needs. -/
theorem State.complete_inv {s : State} {r : Response} (dec : decWithin s.decType s.dec)
    (cursor : ∀ src, s.src = some src → src.cursorOk = true) : (s.complete r).Inv :=
  inv_of_idle rfl dec ⟨rfl, rfl, rfl, rfl, rfl⟩ cursor

/-- RDVAR's start keeps the invariant: DEC is ACC, the first byte request is out and counted (R78). -/
theorem State.Inv.startRead {s : State} (h : s.Inv) (idle : s.adp = .idle) (T : VType) :
    State.Inv { s with
      decType := some T, dec := .acc 0 0, adp := .rd T, io := none, byteReq := .waiting, srcSent := s.srcSent + 1 } where
  dec := decWithin_start (some T)
  idle e := by cases e
  reading T' e := by
    cases e
    obtain ⟨-, -, noAns, -, noWrite⟩ := h.idle idle
    exact ⟨rfl, noWrite, noAns, Nat.le_add_left 1 _, by simp, by simp⟩
  writing _ _ e := by cases e
  cursor := h.cursor

/-- WRVAR's start keeps the invariant: an encoding has 1 to M(T) bytes, and its request is out and counted (R75, R38). -/
theorem State.Inv.startWrite {s : State} (h : s.Inv) (idle : s.adp = .idle) (T : VType) (val : Val) :
    State.Inv { s with
      adp := .wr T (encodeVar T (operand T val)), writeReq := .waiting, ans := none, snkSent := s.snkSent + 1 } where
  dec := h.dec
  idle e := by cases e
  reading _ e := by cases e
  writing T' offered e := by
    cases e
    obtain ⟨-, noIo, -, noByte, -⟩ := h.idle idle
    exact ⟨noIo, noByte, by simp, Nat.le_add_left 1 _, encodeVar_length_bounds T _ (operand_inDomain T val)⟩
  cursor := h.cursor

/-- Taking the source's answer keeps the invariant: the next byte request goes out exactly if DEC is still ACC (R79). -/
theorem State.Inv.advanceRead {s : State} {T : VType} {a : SrcAnswer} (h : s.Inv) (inRead : s.adp = .rd T)
    (waits : s.byteReq = .waiting) : (s.advanceRead T a).Inv := by
  obtain ⟨type, noWrite, noAns, sent, outstanding, -⟩ := h.reading T inRead
  obtain ⟨bits, n, acc⟩ : ∃ bits n, s.dec = .acc bits n :=
    s.dec.eq_acc_of_not_terminal (Bool.eq_false_iff.2 fun e => by simpa [waits] using outstanding.2 e)
  refine ⟨?_, by simp [inRead], ?_, by simp [inRead], h.cursor⟩
  · have within := h.dec
    rw [type] at within
    simpa [type] using answerDec_within T s.dec a within
  · intro T' e
    obtain rfl : T' = T := by simpa [inRead] using e.symm
    refine ⟨type, noWrite, noAns, ?_, by simp, ?_⟩
    · simp only [State.advanceRead_srcSent]
      split <;> omega
    · rw [State.advanceRead_io, State.advanceRead_dec, acc]
      exact answerIo_isSome_iff T' bits n a

/-- Taking the sink's answer keeps the invariant: the write request is answered and the answer is kept (R75). -/
theorem State.Inv.advanceWrite {s : State} {T : VType} {offered : List Byte} {a : SnkAnswer} (h : s.Inv)
    (inWrite : s.adp = .wr T offered) : (s.advanceWrite a).Inv := by
  refine ⟨h.dec, by simp [inWrite], by simp [inWrite], fun T' offered' e => ?_, h.cursor⟩
  obtain ⟨noIo, noByte, -, sent, size⟩ := h.writing T' offered' e
  exact ⟨noIo, noByte, by simp, sent, size⟩

/-- The end that the core owes an operation in flight keeps the invariant (R80, R75). -/
theorem coreDue_keeps_inv {s t : State} (h : s.Inv) (due : s.coreDue = some t) : t.Inv := by
  rcases State.coreDue_cases due with ⟨T, -, -, rfl⟩ | ⟨T, offered, a, -, -, rfl⟩
  · exact State.complete_inv h.dec h.cursor
  · exact State.complete_inv h.dec h.cursor

/-- Every command keeps the invariant, in flight or not. -/
theorem exec_keeps_inv {s t : State} (h : s.Inv) {i : Instr} (run : exec i s = .next t) : t.Inv := by
  rcases exec_cases i s with ⟨r, e, -⟩ | ⟨idle, T, -, e⟩ | ⟨idle, T, b, -, type, e⟩ | ⟨idle, T, -, type, e⟩ |
    ⟨idle, T, val, -, e⟩ | ⟨idle, T, -, e⟩ | ⟨T, inRead, -, e⟩ | ⟨T, offered, -, -, e⟩ <;>
    obtain rfl := Host.Outcome.next.inj (e.symm.trans run)
  · exact h.respond
  · exact (h.setDec idle (decWithin_start (some T))).respond
  · have within := type ▸ h.dec
    exact (h.setDec idle (type ▸ stepDec_within T _ b within)).respond
  · have within := type ▸ h.dec
    exact (h.setDec idle (type ▸ eofDec_within T _ within)).respond
  · exact h.startWrite idle T val
  · exact h.startRead idle T
  · obtain ⟨type, -⟩ := h.reading T inRead
    have count := count_le_of_decWithin (type ▸ h.dec)
    have cancelled : decWithin s.decType (.failed .cancelled s.dec.count) := type ▸ count
    exact State.Inv.respond (State.complete_inv cancelled h.cursor)
  · exact (State.complete_inv (by simpa using h.dec) (by simpa using h.cursor)).respond

/-- The core's move keeps the invariant. -/
theorem coreTurn_keeps_inv {s t : State} (h : s.Inv) (move : coreTurn s = .next t) : t.Inv := by
  rcases coreTurn_cases move with due | ⟨-, -, rfl⟩ | ⟨r, rest, -, -, ⟨why, -, rfl⟩ | ⟨i, -, run⟩⟩
  · exact coreDue_keeps_inv h due
  · exact h
  · exact State.Inv.respond h.beside
  · exact exec_keeps_inv h.beside run

/-- Issuing keeps the invariant. -/
theorem issueTurn_keeps_inv {s : State} (h : s.Inv) : (issueTurn s).Inv := by
  unfold issueTurn
  split
  · exact h
  · split
    · exact h
    · exact h.beside

/-- Reading a response keeps the invariant. -/
theorem readTurn_keeps_inv {s : State} (h : s.Inv) : (readTurn s).Inv := by
  unfold readTurn
  split
  · exact h
  · exact h.beside

/-- Reset leads to the invariant from wherever the cursor is within its bytes, since it keeps the source (R100, R101). -/
theorem resetTurn_inv {s : State} (cursor : ∀ src, s.src = some src → src.cursorOk = true) : (resetTurn s).Inv :=
  State.inv_of_idle rfl rfl ⟨rfl, rfl, rfl, rfl, rfl⟩ (by simpa using cursor)

/-- Settles O45: the step is one agent's move on the state with its turn spent, and each move keeps the invariant. -/
theorem invariantKept : Obligations.InvariantKept := by
  unfold Obligations.InvariantKept
  intro s t h move
  rcases step_cases move with ⟨ag, -, core⟩ | ⟨ag, -, rfl⟩ | ⟨ag, -, rfl⟩ |
    ⟨_, draw, ag, -, ⟨-, rfl⟩ | ⟨src, T, attached, -, inRead, waits, rfl⟩⟩ |
    ⟨_, draw, ag, -, ⟨-, rfl⟩ | ⟨data, T, offered, -, -, inWrite, -, rfl⟩⟩ |
    ⟨ag, -, ⟨-, rfl⟩ | ⟨src, attached, -, rfl⟩⟩ | ⟨src, ag, -, -, cursor, rfl⟩ | ⟨data, ag, -, -, rfl⟩ | ⟨ag, -, rfl⟩
  · exact coreTurn_keeps_inv h.beside core
  · exact issueTurn_keeps_inv h.beside
  · exact readTurn_keeps_inv h.beside
  · exact h.beside
  · exact State.Inv.advanceRead (h.setSrc (src.answer_cursorOk draw (h.cursor src attached))).beside inRead waits
  · exact h.beside
  · exact State.Inv.advanceWrite h.beside inWrite
  · exact h.beside
  · exact (h.setSrc (src.consumed_cursorOk (h.cursor src attached))).beside
  · exact (h.setSrc cursor).beside
  · exact h.beside
  · exact resetTurn_inv h.cursor

/-- Settles O44: nothing is in flight, outstanding or attached, and DEC is as R21 has it. -/
theorem invariantAtReset : Obligations.InvariantAtReset := by
  unfold Obligations.InvariantAtReset
  exact State.inv_of_idle rfl (decWithin_start none) ⟨rfl, rfl, rfl, rfl, rfl⟩ (by simp [State.reset])

/-- Settles O56: State.reset's own fields. -/
theorem resetValues : Obligations.ResetValues := ⟨rfl, rfl, rfl, rfl, rfl, rfl, rfl, rfl⟩

/-! ### Who writes DEC.type (R12) -/

/-- A command that changes DEC.type is DINIT.T or RDVAR.T, and leaves T there. -/
theorem exec_decType {i : Instr} {s t : State} (run : exec i s = .next t) :
    t.decType = s.decType ∨ ∃ T, t.decType = some T ∧ (i = .dinit T ∨ i = .rdvar T) := by
  rcases exec_cases i s with ⟨r, e, -⟩ | ⟨-, T, rfl, e⟩ | ⟨-, T, b, -, -, e⟩ | ⟨-, T, -, -, e⟩ | ⟨-, T, val, -, e⟩ |
    ⟨-, T, rfl, e⟩ | ⟨T, -, -, e⟩ | ⟨T, offered, -, -, e⟩ <;>
    obtain rfl := Host.Outcome.next.inj (e.symm.trans run)
  · exact .inl rfl
  · exact .inr ⟨T, rfl, .inl rfl⟩
  · exact .inl rfl
  · exact .inl rfl
  · exact .inl rfl
  · exact .inr ⟨T, rfl, .inr rfl⟩
  · exact .inl rfl
  · exact .inl (by simp)

/-- A core's move that changes DEC.type takes a DINIT.T or a RDVAR.T, and leaves T there. -/
theorem coreTurn_decType {s t : State} (move : coreTurn s = .next t) :
    t.decType = s.decType ∨
      ∃ T, t.decType = some T ∧ (Stated.NextCommand s (.dinit T) ∨ Stated.NextCommand s (.rdvar T)) := by
  rcases coreTurn_cases move with due | ⟨-, -, rfl⟩ | ⟨r, rest, -, oldest, ⟨why, -, rfl⟩ | ⟨i, legal, run⟩⟩
  · rcases State.coreDue_cases due with ⟨T, -, -, rfl⟩ | ⟨T, offered, a, -, -, rfl⟩ <;> exact .inl rfl
  · exact .inl rfl
  · exact .inl rfl
  · rcases exec_decType run with same | ⟨T, type, rfl | rfl⟩
    · exact .inl same
    · exact .inr ⟨T, type, .inl ⟨r, rest, oldest, legal⟩⟩
    · exact .inr ⟨T, type, .inr ⟨r, rest, oldest, legal⟩⟩

/-- Settles O29: of all the moves only reset and the core's can change DEC.type, and the core's only by those commands. -/
theorem decTypeWrites : Obligations.DecTypeWrites := by
  unfold Obligations.DecTypeWrites
  intro s t move changed
  rcases step_cases move with ⟨ag, -, core⟩ | ⟨ag, -, rfl⟩ | ⟨ag, -, rfl⟩ |
    ⟨_, draw, ag, -, ⟨-, rfl⟩ | ⟨src, T, -, -, -, -, rfl⟩⟩ |
    ⟨_, draw, ag, -, ⟨-, rfl⟩ | ⟨data, T, offered, -, -, -, -, rfl⟩⟩ |
    ⟨ag, -, ⟨-, rfl⟩ | ⟨src, -, -, rfl⟩⟩ | ⟨src, ag, -, -, -, rfl⟩ | ⟨data, ag, -, -, rfl⟩ | ⟨ag, turn, rfl⟩
  · exact .inr ((coreTurn_decType core).resolve_left changed)
  · exact absurd (issueTurn_decType _) changed
  · exact absurd (readTurn_decType _) changed
  · exact absurd rfl changed
  · exact absurd rfl changed
  · exact absurd rfl changed
  · exact absurd rfl changed
  · exact absurd rfl changed
  · exact absurd rfl changed
  · exact absurd rfl changed
  · exact absurd rfl changed
  · exact .inl ⟨⟨ag, turn⟩, rfl⟩

/-! ### The pure commands (R20) -/

/-- zzenc.iW means runZzenc at W (R55). -/
theorem exec_zzenc (w : Width) (val : Val) (s : State) : exec (.zzenc w val) s = runZzenc w val s := by cases w <;> rfl

/-- zzdec.iW means runZzdec at W (R56). -/
theorem exec_zzdec (w : Width) (val : Val) (s : State) : exec (.zzdec w val) s = runZzdec w val s := by cases w <;> rfl

/-- vmaxsz.T means runVmaxsz at T (R59). -/
theorem exec_vmaxsz (T : VType) (s : State) : exec (.vmaxsz T) s = runVmaxsz T s := by
  rcases T with ⟨_ | _ | _ | _, _ | _⟩ <;> rfl

/-- vrspace.T means runVrspace at T (R60). -/
theorem exec_vrspace (T : VType) (val : Val) (s : State) : exec (.vrspace T val) s = runVrspace T val s := by
  rcases T with ⟨_ | _ | _ | _, _ | _⟩ <;> rfl

/-- venc.T means runVenc at T (R61). -/
theorem exec_venc (T : VType) (val : Val) (s : State) : exec (.venc T val) s = runVenc T val s := by
  rcases T with ⟨_ | _ | _ | _, _ | _⟩ <;> rfl

/-- vdec.T means runVdec at T (R62, R63). -/
theorem exec_vdec (T : VType) (sb : Lanes) (slen : BitVec 4) (s : State) :
    exec (.vdec T sb slen) s = runVdec T sb slen s := by
  rcases T with ⟨_ | _ | _ | _, _ | _⟩ <;> rfl

/-- A command that only answers, or is turned away BUSY, changes the response channel or the held responses alone (R48, R86). -/
theorem unlessBusy_respond_frame {s t : State} {r : Response} (run : s.unlessBusy (s.respond r) = .next t) :
    t = { s with rspCh := t.rspCh, held := t.held } := by
  by_cases idle : s.adp = .idle
  · rw [s.unlessBusy_of_idle _ idle] at run
    cases run
    rfl
  · rw [s.unlessBusy_of_busy _ idle] at run
    cases run
    rfl

/-- Settles O42: each of the six families answers or is turned away BUSY, and does nothing else. -/
theorem codecCommandsHaveNoState : Obligations.CodecCommandsHaveNoState := by
  unfold Obligations.CodecCommandsHaveNoState
  intro w T val sb slen i s t family run
  simp only [List.mem_cons, List.not_mem_nil, or_false] at family
  rcases family with rfl | rfl | rfl | rfl | rfl | rfl
  · exact unlessBusy_respond_frame (exec_zzenc w val s ▸ run)
  · exact unlessBusy_respond_frame (exec_zzdec w val s ▸ run)
  · exact unlessBusy_respond_frame (exec_vmaxsz T s ▸ run)
  · exact unlessBusy_respond_frame (exec_vrspace T val s ▸ run)
  · exact unlessBusy_respond_frame (exec_venc T val s ▸ run)
  · exact unlessBusy_respond_frame (exec_vdec T sb slen s ▸ run)

end Sys2Proof.Machine
end

section
/-! Proofs of the family 20_memory: what a step does to the source and the sink outside the core (R19, R25 to R27), and that
every wait of a fair run ends (R107, R108). -/

namespace Sys2Proof.Machine

/-! ### How a slice-backed source answers (R26) -/

/-- Before its end a slice-backed source delivers the byte at the cursor and moves on by one. -/
theorem Source.answer_slice_of_lt {S : List Byte} {cur : Nat} (inside : cur < S.length) (draw : SrcAnswer) :
    (Source.slice S cur).answer draw = (.byte S[cur], .slice S (cur + 1)) := by
  simp only [Source.answer, List.getElem?_eq_getElem inside]

/-- At its end a slice-backed source answers Eof and stays. -/
theorem Source.answer_slice_of_le {S : List Byte} {cur : Nat} (atEnd : S.length ≤ cur) (draw : SrcAnswer) :
    (Source.slice S cur).answer draw = (.eof, .slice S cur) := by
  simp only [Source.answer, List.getElem?_eq_none atEnd]

/-- The turn of the attached source that answers the outstanding byte request is a step that takes the answer (R79, R107). -/
theorem step_of_source_awaited {s : State} {src : Source} {T : VType} {draw : SrcAnswer} {ag : List Turn}
    (turn : s.agenda = .source 0 draw :: ag) (attached : s.src = some src) (inRead : s.adp = .rd T)
    (waits : s.byteReq = .waiting) :
    step s = .next (Stated.afterAnswer s (src.answer draw).2 (answerDec T s.dec (src.answer draw).1)
      (answerIo (src.answer draw).1) ag) := by
  rw [step_of_agenda_cons s _ ag turn]
  exact sourceTurn_of_awaited (s := { s with agenda := ag }) draw attached inRead waits

/-- Settles O51: the answer is the one of R26 on either side of the end, and the step takes it. -/
theorem sliceBackedSourceAnswers : Obligations.SliceBackedSourceAnswers := by
  unfold Obligations.SliceBackedSourceAnswers
  intro s T S cur draw ag turn attached inRead waits
  have answered := step_of_source_awaited turn attached inRead waits
  constructor
  · intro inside
    rw [Source.answer_slice_of_lt inside] at answered
    exact answered
  · intro atEnd
    rw [Source.answer_slice_of_le atEnd] at answered
    exact answered

/-! ### What the core leaves alone -/

/-- A command leaves the request channel, the source, the requester's program and the agenda alone. -/
theorem exec_frame {i : Instr} {s t : State} (run : exec i s = .next t) :
    t.reqCh = s.reqCh ∧ t.src = s.src ∧ t.program = s.program ∧ t.agenda = s.agenda := by
  rcases exec_cases i s with ⟨r, e, -⟩ | ⟨-, T, -, e⟩ | ⟨-, T, b, -, -, e⟩ | ⟨-, T, -, -, e⟩ | ⟨-, T, val, -, e⟩ |
    ⟨-, T, -, e⟩ | ⟨T, -, -, e⟩ | ⟨T, offered, -, -, e⟩ <;>
    obtain rfl := Host.Outcome.next.inj (e.symm.trans run) <;> simp

/-- The core's move leaves the source, the requester's program and the agenda alone. -/
theorem coreTurn_frame {s t : State} (move : coreTurn s = .next t) :
    t.src = s.src ∧ t.program = s.program ∧ t.agenda = s.agenda := by
  rcases coreTurn_cases move with due | ⟨-, -, rfl⟩ | ⟨r, rest, -, -, ⟨why, -, rfl⟩ | ⟨i, -, run⟩⟩
  · rcases State.coreDue_cases due with ⟨T, -, -, rfl⟩ | ⟨T, offered, a, -, -, rfl⟩ <;> exact ⟨rfl, rfl, rfl⟩
  · exact ⟨rfl, rfl, rfl⟩
  · exact ⟨rfl, rfl, rfl⟩
  · exact (exec_frame run).2

/-! ### The source moves only when asked (R25) -/

/-- Settles O50: the moves that can change the source are the attaching, another reader's, and the answer that is taken. -/
theorem sourceMovesOnlyWhenAsked : Obligations.SourceMovesOnlyWhenAsked := by
  unfold Obligations.SourceMovesOnlyWhenAsked
  intro s t move moved
  rcases step_cases move with ⟨ag, -, core⟩ | ⟨ag, -, rfl⟩ | ⟨ag, -, rfl⟩ |
    ⟨age, draw, ag, turn, ⟨-, rfl⟩ | ⟨src, T, attached, rfl, inRead, waits, rfl⟩⟩ |
    ⟨_, draw, ag, -, ⟨-, rfl⟩ | ⟨data, T, offered, -, -, -, -, rfl⟩⟩ |
    ⟨ag, turn, -⟩ | ⟨src, ag, turn, -⟩ | ⟨data, ag, -, -, rfl⟩ | ⟨ag, -, rfl⟩
  · exact absurd (coreTurn_frame core).1 moved
  · exact absurd (issueTurn_src _) moved
  · exact absurd (readTurn_src _) moved
  · exact absurd rfl moved
  · exact .inr (.inr ⟨T, draw, ag, src, turn, inRead, waits, attached, rfl, rfl⟩)
  · exact absurd rfl moved
  · exact absurd rfl moved
  · exact .inr (.inl ⟨ag, turn⟩)
  · exact .inl ⟨src, ag, turn⟩
  · exact absurd rfl moved
  · exact absurd (resetTurn_src _) moved

/-! ### The sink gains only what is offered (R27) -/

/-- From `s` to `t` the sink, if one is attached, gains a part of what the WRVAR in flight in `s` offers, from its first
byte on, which may be nothing. -/
def State.SinkGrows (s t : State) : Prop := ∃ p, p <+: s.adp.offered ∧ t.snk = s.snk.map (· ++ p)

/-- A sink that stays as it is has gained the empty part. -/
theorem State.sinkGrows_of_snk_eq {s t : State} (same : t.snk = s.snk) : s.SinkGrows t :=
  ⟨[], List.nil_prefix, by simp [same]⟩

/-- What a sink has taken with its answer is a part of what was offered, from its first byte on (R27). -/
theorem SnkAnswer.accepted_prefix (offered : List Byte) (a : SnkAnswer) : a.accepted offered <+: offered := by
  cases a with
  | ok => exact List.prefix_rfl
  | ioErr e taken => exact List.take_prefix taken offered

/-- Among the commands only an ABORT moves the sink, and it leaves a part of the write it withdraws (R81). -/
theorem exec_sinkGrows {i : Instr} {s t : State} (run : exec i s = .next t) : s.SinkGrows t := by
  rcases exec_cases i s with ⟨r, e, -⟩ | ⟨-, T, -, e⟩ | ⟨-, T, b, -, -, e⟩ | ⟨-, T, -, -, e⟩ | ⟨-, T, val, -, e⟩ |
    ⟨-, T, -, e⟩ | ⟨T, -, -, e⟩ | ⟨T, offered, inWrite, -, e⟩ <;>
    obtain rfl := Host.Outcome.next.inj (e.symm.trans run)
  case inr.inr.inr.inr.inr.inr.inr =>
    obtain ⟨p, isPart, grown⟩ := s.withdrawWrite_snk_grows offered
    exact ⟨p, by simpa [inWrite] using isPart, grown⟩
  all_goals exact State.sinkGrows_of_snk_eq rfl

/-- The core's move appends to the sink only a part of the write in flight. -/
theorem coreTurn_sinkGrows {s t : State} (move : coreTurn s = .next t) : s.SinkGrows t := by
  rcases coreTurn_cases move with due | ⟨-, -, rfl⟩ | ⟨r, rest, -, -, ⟨why, -, rfl⟩ | ⟨i, -, run⟩⟩
  · rcases State.coreDue_cases due with ⟨T, -, -, rfl⟩ | ⟨T, offered, a, -, -, rfl⟩ <;>
      exact State.sinkGrows_of_snk_eq rfl
  · exact State.sinkGrows_of_snk_eq rfl
  · exact State.sinkGrows_of_snk_eq rfl
  · have grown := exec_sinkGrows run
    exact grown

/-- The sink's answer appends what the sink has taken, a part of the write in flight (R27). -/
theorem State.sinkGrows_of_answer {s t : State} {data offered : List Byte} {T : VType} (a : SnkAnswer)
    (attached : s.snk = some data) (inWrite : s.adp = .wr T offered)
    (grown : t.snk = some (data ++ a.accepted offered)) : s.SinkGrows t :=
  ⟨a.accepted offered, by simpa [inWrite] using a.accepted_prefix offered, by simp [attached, grown]⟩

/-- Every step but the attaching of a sink appends to the sink only a part of the write in flight (R27, R81, R101). -/
theorem step_sinkGrows {s t : State} (move : step s = .next t) :
    (∃ data ag, s.agenda = .attachSink data :: ag) ∨ s.SinkGrows t := by
  rcases step_cases move with ⟨ag, -, core⟩ | ⟨ag, -, rfl⟩ | ⟨ag, -, rfl⟩ |
    ⟨_, draw, ag, -, ⟨-, rfl⟩ | ⟨src, T, -, -, -, -, rfl⟩⟩ |
    ⟨_, draw, ag, -, ⟨-, rfl⟩ | ⟨data, T, offered, attached, -, inWrite, -, rfl⟩⟩ |
    ⟨ag, -, ⟨-, rfl⟩ | ⟨src, -, -, rfl⟩⟩ | ⟨src, ag, -, -, -, rfl⟩ | ⟨data, ag, turn, -⟩ | ⟨ag, -, rfl⟩
  · have grown := coreTurn_sinkGrows core
    exact .inr grown
  · exact .inr (State.sinkGrows_of_snk_eq (issueTurn_snk _))
  · exact .inr (State.sinkGrows_of_snk_eq (readTurn_snk _))
  · exact .inr (State.sinkGrows_of_snk_eq rfl)
  · exact .inr (State.sinkGrows_of_snk_eq rfl)
  · exact .inr (State.sinkGrows_of_snk_eq rfl)
  · exact .inr (State.sinkGrows_of_answer draw attached inWrite rfl)
  · exact .inr (State.sinkGrows_of_snk_eq rfl)
  · exact .inr (State.sinkGrows_of_snk_eq rfl)
  · exact .inr (State.sinkGrows_of_snk_eq rfl)
  · exact .inl ⟨data, ag, turn⟩
  · exact .inr (State.withdrawWrite_snk_grows { s with agenda := ag } s.adp.offered)

/-- Settles O49: what every step but attaching does to the sink, read at an attached one. -/
theorem sinkGrowsByOfferedBytes : Obligations.SinkGrowsByOfferedBytes := by
  unfold Obligations.SinkGrowsByOfferedBytes
  intro s t data move attached
  rcases step_sinkGrows move with attaching | ⟨p, isPart, grown⟩
  · exact .inl attaching
  · exact .inr ⟨p, isPart, by simpa [attached] using grown⟩

/-! ### One move of the core, towards the end of its work (R33, R107) -/

/-- A core that owes nothing and has no command to take waits (R33). -/
theorem coreTurn_of_nil (s : State) (owesNothing : s.coreDue = none) (noCommand : s.reqCh = []) :
    coreTurn s = .next s := by
  simp only [coreTurn, owesNothing, noCommand]

/-- A bound on the moves the core can make by itself: one to take each waiting command, one to end what each of them may start,
and one to end what is in flight. -/
def State.coreWork (s : State) : Nat := 2 * s.reqCh.length + if s.adp.isIdle then 0 else 1

/-- Beside the commands that wait there is at most one operation to end. -/
theorem State.coreWork_le (s : State) : s.coreWork ≤ 2 * s.reqCh.length + 1 := by
  unfold State.coreWork
  split <;> omega

/-- Ending the operation in flight is work done. -/
theorem State.coreWork_complete_lt {s : State} (r : Response) (inFlight : s.adp ≠ .idle) :
    (s.complete r).coreWork < s.coreWork := by
  simp [State.coreWork, (Adp.isIdle_false_iff _).2 inFlight]

/-- Taking a command is work done, whatever the command starts. -/
theorem State.coreWork_lt_of_taken {s t : State} {r : Request} {rest : List Request} (oldest : s.reqCh = r :: rest)
    (taken : t.reqCh = rest) : t.coreWork < s.coreWork := by
  calc t.coreWork ≤ 2 * rest.length + 1 := taken ▸ t.coreWork_le
    _ < 2 * s.reqCh.length := by rw [oldest, List.length_cons]; omega
    _ ≤ s.coreWork := Nat.le_add_right _ _

/-- On its move the core waits, with nothing owed and no command to take, or has less work left. -/
theorem coreTurn_waits_or_works {s t : State} (move : coreTurn s = .next t) :
    (s.CoreFree ∧ s.reqCh = [] ∧ t = s) ∨ t.coreWork < s.coreWork := by
  rcases coreTurn_cases move with due | ⟨free, noCommand, same⟩ | ⟨r, rest, -, oldest, ⟨why, -, rfl⟩ | ⟨i, -, run⟩⟩
  · rcases State.coreDue_cases due with ⟨T, inRead, -, rfl⟩ | ⟨T, offered, a, inWrite, -, rfl⟩
    · exact .inr (State.coreWork_complete_lt _ (by simp [inRead]))
    · exact .inr (State.coreWork_complete_lt _ (by simp [inWrite]))
  · exact .inl ⟨(State.coreDue_eq_none_iff s).1 free, noCommand, same⟩
  · exact .inr (State.coreWork_lt_of_taken oldest rfl)
  · exact .inr (State.coreWork_lt_of_taken oldest (exec_frame run).1)

/-! ### Every step spends its turn and adds nothing to the program -/

/-- Once the agenda is spent the step is the core's move (log entry 1). -/
theorem step_of_agenda_nil {s : State} (spent : s.agenda = []) : step s = coreTurn s := by
  simp only [step, nextMove, spent]

/-- A step spends the turn at the head of the agenda, and no other. -/
theorem step_agenda {s t : State} (move : step s = .next t) : t.agenda = s.agenda.tail := by
  rcases step_cases move with ⟨ag, turn, core⟩ | ⟨ag, turn, rfl⟩ | ⟨ag, turn, rfl⟩ |
    ⟨_, draw, ag, turn, ⟨-, rfl⟩ | ⟨src, T, -, -, -, -, rfl⟩⟩ |
    ⟨_, draw, ag, turn, ⟨-, rfl⟩ | ⟨data, T, offered, -, -, -, -, rfl⟩⟩ |
    ⟨ag, turn, ⟨-, rfl⟩ | ⟨src, -, -, rfl⟩⟩ | ⟨src, ag, turn, -, -, rfl⟩ | ⟨data, ag, turn, -, rfl⟩ | ⟨ag, turn, rfl⟩
  case inl =>
    rw [(coreTurn_frame core).2.2]
    rcases turn with ⟨spent, rfl⟩ | turn
    · simp [spent]
    · simp [turn]
  all_goals simp [turn]

/-- With no command left to issue, none is left after the step. -/
theorem step_program_nil {s t : State} (move : step s = .next t) (allIssued : s.program = []) : t.program = [] := by
  rcases step_cases move with ⟨ag, -, core⟩ | ⟨ag, -, rfl⟩ | ⟨ag, -, rfl⟩ |
    ⟨_, draw, ag, -, ⟨-, rfl⟩ | ⟨src, T, -, -, -, -, rfl⟩⟩ |
    ⟨_, draw, ag, -, ⟨-, rfl⟩ | ⟨data, T, offered, -, -, -, -, rfl⟩⟩ |
    ⟨ag, -, ⟨-, rfl⟩ | ⟨src, -, -, rfl⟩⟩ | ⟨src, ag, -, -, -, rfl⟩ | ⟨data, ag, -, -, rfl⟩ | ⟨ag, -, rfl⟩
  case inl => exact (coreTurn_frame core).2.1.trans allIssued
  case inr.inl => simp [issueTurn, allIssued]
  all_goals simpa using allIssued

/-! ### Unending runs -/

/-- What every step keeps, a run keeps from any of its states on. -/
theorem IsRun.keeps {run : Nat → State} (isRun : IsRun run) {P : State → Prop}
    (kept : ∀ {s t}, step s = .next t → P s → P t) {i j : Nat} (later : i ≤ j) (start : P (run i)) : P (run j) := by
  induction j, later using Nat.le_induction with
  | base => exact start
  | succ j _ ih => exact kept (isRun j) ih

/-- Every state of a run that starts in the invariant meets it (R16 to R19). -/
theorem IsRun.inv {run : Nat → State} (isRun : IsRun run) (start : (run 0).Inv) (i : Nat) : (run i).Inv :=
  isRun.keeps (P := State.Inv) (fun move inv => invariantKept _ _ inv move) (Nat.zero_le i) start

/-- k steps on, k turns of the agenda are spent. -/
theorem IsRun.agenda_drop {run : Nat → State} (isRun : IsRun run) (i k : Nat) :
    (run (i + k)).agenda = (run i).agenda.drop k := by
  induction k with
  | zero => rfl
  | succ k ih => rw [← Nat.add_assoc, step_agenda (isRun (i + k)), ih, List.tail_drop]

/-- The agenda of every run is spent at some point. -/
theorem IsRun.exists_agenda_nil {run : Nat → State} (isRun : IsRun run) (i : Nat) :
    ∃ j, i ≤ j ∧ (run j).agenda = [] :=
  ⟨i + (run i).agenda.length, Nat.le_add_right _ _, by rw [isRun.agenda_drop, List.drop_length]⟩

/-- A run in which the core waits with the agenda spent stays there. -/
theorem IsRun.eq_of_waits {run : Nat → State} (isRun : IsRun run) {i j : Nat} (later : i ≤ j)
    (waits : run (i + 1) = run i) : run j = run i := by
  have stays : step (run i) = .next (run i) := (isRun i).trans (congrArg _ waits)
  refine isRun.keeps (P := (· = run i)) (fun move here => ?_) later rfl
  exact Host.Outcome.next.inj (move.symm.trans (here ▸ stays))

/-- With the agenda spent the core works until it waits: its work grows less with every other move. -/
theorem IsRun.exists_waits {run : Nat → State} (isRun : IsRun run) (i : Nat) (spent : (run i).agenda = []) :
    ∃ j, i ≤ j ∧ (run j).CoreFree ∧ (run j).reqCh = [] ∧ run (j + 1) = run j := by
  have move : coreTurn (run i) = .next (run (i + 1)) := step_of_agenda_nil spent ▸ isRun i
  rcases coreTurn_waits_or_works move with ⟨free, noCommand, same⟩ | less
  · exact ⟨i, le_rfl, free, noCommand, same⟩
  · have spent' : (run (i + 1)).agenda = [] := by rw [step_agenda (isRun i), spent, List.tail_nil]
    obtain ⟨j, later, waits⟩ := isRun.exists_waits (i + 1) spent'
    exact ⟨j, (Nat.le_succ i).trans later, waits⟩
termination_by (run i).coreWork

/-- A fair run in which nothing changes any more has no request outstanding (R107). -/
theorem Fair.no_request_of_constant {run : Nat → State} (fair : Fair run) (i : Nat)
    (constant : ∀ j, i ≤ j → run j = run i) : (run i).byteReq ≠ .waiting ∧ (run i).writeReq ≠ .waiting := by
  obtain ⟨⟨j, laterByte, byte⟩, k, laterWrite, write⟩ := fair i
  rw [constant j laterByte] at byte
  rw [constant k laterWrite] at write
  exact ⟨fun waits => by simpa [waits] using byte waits, fun waits => by simpa [waits] using write waits⟩

/-- A free core with no request outstanding has nothing in flight (R18, R75, R79). -/
theorem State.Inv.idle_of_free {s : State} (inv : s.Inv) (free : s.CoreFree) (noByte : s.byteReq ≠ .waiting)
    (noWrite : s.writeReq ≠ .waiting) : s.adp = .idle := by
  have portNone : ∀ {p : Port}, p ≠ .waiting → p = .none := by intro p; cases p <;> simp
  obtain ⟨freeRead, freeWrite⟩ := free
  cases inFlight : s.adp with
  | idle => rfl
  | rd T =>
    obtain ⟨-, -, -, -, outstanding, -⟩ := inv.reading T inFlight
    have terminal := outstanding.1 (portNone noByte)
    simp [freeRead T inFlight] at terminal
  | wr T offered =>
    obtain ⟨-, -, outstanding, -⟩ := inv.writing T offered inFlight
    have answered := outstanding.1 (portNone noWrite)
    simp [freeWrite T offered inFlight] at answered

/-- With all issued and taken, and ADP IDLE, a run has ended (R108). -/
theorem State.Inv.runEnded_of_idle {s : State} (inv : s.Inv) (allIssued : s.program = []) (allTaken : s.reqCh = [])
    (idle : s.adp = .idle) : s.runEnded = true := by
  obtain ⟨noHeld, -, -, noByte, noWrite⟩ := inv.idle idle
  simp [State.runEnded, allIssued, allTaken, idle, noHeld, noByte, noWrite]

/-- Settles O6: the agenda is spent, the core works until it waits, and a fair run that waits for ever waits for no answer. -/
theorem coreWaitsWithoutBound : Obligations.CoreWaitsWithoutBound := by
  unfold Obligations.CoreWaitsWithoutBound
  constructor
  · intro s ag moves free noCommand
    rw [step_of_coreMoves s ag moves]
    exact coreTurn_of_nil _ (State.coreDue_of_coreFree s ag free) noCommand
  · intro run isRun start fair i
    obtain ⟨k, later, spent⟩ := isRun.exists_agenda_nil i
    obtain ⟨j, later', free, noCommand, same⟩ := isRun.exists_waits k spent
    have inv : (run j).Inv := isRun.inv start j
    obtain ⟨noByte, noWrite⟩ := fair.no_request_of_constant j fun _ after => isRun.eq_of_waits after same
    have idle : (run j).adp = .idle := inv.idle_of_free free noByte noWrite
    refine ⟨j, later.trans later', idle, noCommand, (inv.idle idle).1, fun allIssued => ?_⟩
    exact inv.runEnded_of_idle (isRun.keeps step_program_nil (later.trans later') allIssued) noCommand idle

end Sys2Proof.Machine
end

section
/-! Proofs of the family 30_encoding: command words and commands (R44 to R50, R53), what the assembler places (R52), one
response for each command, in command order (R32, R48), and padded encodings (R42). -/

namespace Sys2Proof.Machine

/-! ### Command words and commands (R44, R45, R49) -/

/-- WC, the code of a width (R45). -/
def widthCode : Width → BitVec 2
  | .w8 => 0
  | .w16 => 1
  | .w32 => 2
  | .w64 => 3

/-- The command word of operation `op` at type T: cmd[7:4] = OP, cmd[3] = 0, cmd[2] = S, cmd[1:0] = WC (R44, R45). -/
def wordOf (op : Nat) (T : VType) : Byte :=
  BitVec.ofNat 4 op ++ 0#1 ++ BitVec.ofBool T.signed ++ widthCode T.width

/-- A word with the reserved bit clear is the one of its own operation and type field. -/
theorem wordOf_cmdOp_cmdType (c : Byte) : c.getLsbD 3 = false → wordOf (cmdOp c) (cmdType c) = c := by
  revert c; decide

/-- cmd[2:0] = 0b000 is the type field of u8 (R45). -/
theorem cmdType_of_cmdNoType (c : Byte) : cmdNoType c = true → cmdType c = .u8 := by
  revert c; decide

/-! The rows of R49: the word of each operation that has a type field, at each type it takes. -/

theorem cmd_zzenc (w : Width) (val : Val) : (Instr.zzenc w val).cmd = wordOf 0x0 ⟨w, true⟩ := by cases w <;> rfl
theorem cmd_zzdec (w : Width) (val : Val) : (Instr.zzdec w val).cmd = wordOf 0x1 ⟨w, true⟩ := by cases w <;> rfl
theorem cmd_vmaxsz (T : VType) : (Instr.vmaxsz T).cmd = wordOf 0x2 T := by
  rcases T with ⟨_ | _ | _ | _, _ | _⟩ <;> rfl
theorem cmd_vrspace (T : VType) (val : Val) : (Instr.vrspace T val).cmd = wordOf 0x3 T := by
  rcases T with ⟨_ | _ | _ | _, _ | _⟩ <;> rfl
theorem cmd_venc (T : VType) (val : Val) : (Instr.venc T val).cmd = wordOf 0x4 T := by
  rcases T with ⟨_ | _ | _ | _, _ | _⟩ <;> rfl
theorem cmd_vdec (T : VType) (sb : Lanes) (slen : BitVec 4) : (Instr.vdec T sb slen).cmd = wordOf 0x5 T := by
  rcases T with ⟨_ | _ | _ | _, _ | _⟩ <;> rfl
theorem cmd_dinit (T : VType) : (Instr.dinit T).cmd = wordOf 0x6 T := by
  rcases T with ⟨_ | _ | _ | _, _ | _⟩ <;> rfl
theorem cmd_wrvar (T : VType) (val : Val) : (Instr.wrvar T val).cmd = wordOf 0x9 T := by
  rcases T with ⟨_ | _ | _ | _, _ | _⟩ <;> rfl
theorem cmd_rdvar (T : VType) : (Instr.rdvar T).cmd = wordOf 0xA T := by
  rcases T with ⟨_ | _ | _ | _, _ | _⟩ <;> rfl

/-- A word that is legal under a condition is read as its command exactly if the condition holds (R50). -/
theorem legalIf_eq_instr {ok : Bool} {why : IllegalWord} {i j : Instr} :
    Decoded.legalIf ok why i = .instr j ↔ ok = true ∧ i = j := by
  cases ok <;> simp [Decoded.legalIf]

/-- The decoder reads every word of R49 as the command that is encoded with it, with its operands. -/
theorem decode_encode (i : Instr) : decode (encode i) = .instr i := by
  cases i <;> (simp only [encode, decode, Instr.cmd, Request.ofCmd]; rfl)

/-- A command that the decoder reads has the word it was read from: each line of the decoder reads its own row of R49. -/
theorem cmd_of_decode {r : Request} {i : Instr} (legal : decode r = .instr i) : i.cmd = r.cmd := by
  unfold decode at legal
  cases reserved : r.cmd.getLsbD 3 with
  | true =>
    rw [reserved] at legal
    cases legal
  | false =>
    rw [reserved, cond_false] at legal
    rw [← wordOf_cmdOp_cmdType r.cmd reserved]
    split at legal
    next op =>
      obtain ⟨signed, rfl⟩ := legalIf_eq_instr.1 legal
      rw [op, cmdType, signed, cmd_zzenc]
    next op =>
      obtain ⟨signed, rfl⟩ := legalIf_eq_instr.1 legal
      rw [op, cmdType, signed, cmd_zzdec]
    next op => cases legal; rw [op, cmd_vmaxsz]
    next op => cases legal; rw [op, cmd_vrspace]
    next op => cases legal; rw [op, cmd_venc]
    next op => cases legal; rw [op, cmd_vdec]
    next op => cases legal; rw [op, cmd_dinit]
    next op =>
      obtain ⟨noType, rfl⟩ := legalIf_eq_instr.1 legal
      rw [op, cmdType_of_cmdNoType _ noType]; rfl
    next op =>
      obtain ⟨noType, rfl⟩ := legalIf_eq_instr.1 legal
      rw [op, cmdType_of_cmdNoType _ noType]; rfl
    next op => cases legal; rw [op, cmd_wrvar]
    next op => cases legal; rw [op, cmd_rdvar]
    next op =>
      obtain ⟨noType, rfl⟩ := legalIf_eq_instr.1 legal
      rw [op, cmdType_of_cmdNoType _ noType]; rfl
    next => cases legal

/-- Settles O1: the decoder undoes the encoder, and what it reads has the word it was read from. -/
theorem decodeInvertsEncode : Obligations.DecodeInvertsEncode := by
  unfold Obligations.DecodeInvertsEncode
  exact ⟨decode_encode, fun _ i legal => (encode_cmd i).trans (cmd_of_decode legal)⟩

/-- Settles O4: the decoder evaluated on each of the twelve words. -/
theorem mapWordsDecode : Obligations.MapWordsDecode := by
  unfold Obligations.MapWordsDecode
  decide

/-- Settles O3: the assembler evaluated on each of the seven lines. -/
theorem workedEncodings : Obligations.WorkedEncodings := by
  unfold Obligations.WorkedEncodings
  decide

/-! ### Illegal words (R50) -/

/-- The four lines of R50, checked against the decoder word by word. -/
theorem decode_ofCmd_isNone_iff (c : Byte) : (decode (.ofCmd c)).toOption.isNone = true ↔
    c.getLsbD 3 = true ∨ 12 ≤ c.toNat / 16 ∨ (c.toNat / 16 ≤ 1 ∧ c.getLsbD 2 = false) ∨
      ((c.toNat / 16 = 7 ∨ c.toNat / 16 = 8 ∨ c.toNat / 16 = 11) ∧ c.toNat % 8 ≠ 0) := by
  revert c; decide

/-- A request with an illegal word is turned away: check 1 of R84 fails. -/
theorem runCommand_of_illegal (r : Request) (why : IllegalWord) (s : State) (illegal : decode r = .illegal why) :
    runCommand r s = .next (s.reject .illegalCommand) := by
  simp only [runCommand, illegal]

/-- Settles O2: the verdict is the command word's alone, so 256 words decide it, and an illegal one is turned away. -/
theorem illegalWordsAnswered : Obligations.IllegalWordsAnswered := by
  unfold Obligations.IllegalWordsAnswered
  refine ⟨fun r => ?_, rfl, fun s ag r rest why moves free oldest illegal => ?_⟩
  · rw [decode_illegal_iff, decode_isNone_cmd]
    exact decode_ofCmd_isNone_iff r.cmd
  · rw [step_of_coreMoves_cons s ag r rest moves free oldest, runCommand_of_illegal r why _ illegal]
    exact ⟨fun idle => congrArg _ (State.respond_of_idle _ _ idle),
      fun inFlight => congrArg _ (State.respond_of_busy _ _ inFlight)⟩

/-! ### The bits of val above W (R46) -/

/-- wrvar.T means runWrvar at T (R75). -/
theorem exec_wrvar (T : VType) (val : Val) (s : State) : exec (.wrvar T val) s = runWrvar T val s := by
  rcases T with ⟨_ | _ | _ | _, _ | _⟩ <;> rfl

/-- operand_T reads the low W bits of val only. -/
theorem operand_eq_of_lowBits_eq {T : VType} {val val' : Val} (low : lowBits T.width val = lowBits T.width val') :
    operand T val = operand T val' := by
  simp only [operand, low]

/-- Settles O43: each of the five commands reads val through its low W bits. -/
theorem upperOperandBitsIgnored : Obligations.UpperOperandBitsIgnored := by
  unfold Obligations.UpperOperandBitsIgnored
  intro T val val' same s
  have low : lowBits T.width val = lowBits T.width val' := same
  have value : operand T val = operand T val' := operand_eq_of_lowBits_eq low
  refine ⟨?_, ?_, ?_, ?_, ?_⟩
  · simp only [exec_zzenc, runZzenc, zzencResponse, low]
  · simp only [exec_zzdec, runZzdec, zzdecResponse, low]
  · simp only [exec_vrspace, runVrspace, vrspaceResponse, value]
  · simp only [exec_venc, runVenc, vencResponse, value]
  · simp only [exec_wrvar, runWrvar, value]

/-! ### Every command has one response (R48) -/

/-- A response placed is one more command answered, on the channel or held. -/
theorem commandCount_respond (s : State) (r : Response) : (s.respond r).commandCount = s.commandCount + 1 := by
  by_cases idle : s.adp = .idle
  · simp +arith [s.respond_of_idle r idle, State.commandCount]
  · simp +arith [s.respond_of_busy r idle, State.commandCount]

/-- The end of an operation answers the one command in flight, and what was held goes on the channel. -/
theorem commandCount_complete {s : State} (r : Response) (inFlight : s.adp ≠ .idle) :
    (s.complete r).commandCount = s.commandCount := by
  simp +arith [State.commandCount, (Adp.isIdle_false_iff _).2 inFlight]

/-- A command taken off the request channel is one less that waits. -/
theorem commandCount_taken {s : State} {r : Request} {rest : List Request} (oldest : s.reqCh = r :: rest) :
    State.commandCount { s with reqCh := rest } + 1 = s.commandCount := by
  simp +arith [State.commandCount, oldest]

/-- A command that is run is one more command answered or in flight. -/
theorem exec_commandCount {i : Instr} {s t : State} (run : exec i s = .next t) :
    t.commandCount = s.commandCount + 1 := by
  rcases exec_cases i s with ⟨r, e, -⟩ | ⟨-, T, -, e⟩ | ⟨-, T, b, -, -, e⟩ | ⟨-, T, -, -, e⟩ |
    ⟨idle, T, val, -, e⟩ | ⟨idle, T, -, e⟩ | ⟨T, inRead, -, e⟩ | ⟨T, offered, inWrite, -, e⟩ <;>
    obtain rfl := Host.Outcome.next.inj (e.symm.trans run)
  · exact commandCount_respond s r
  · exact commandCount_respond _ _
  · exact commandCount_respond _ _
  · exact commandCount_respond _ _
  · simp +arith [State.commandCount, idle]
  · simp +arith [State.commandCount, idle]
  · rw [commandCount_respond, commandCount_complete _ (by simp [inRead])]
    rfl
  · rw [commandCount_respond, commandCount_complete _ (by simp [inWrite])]
    simp [State.commandCount]

/-- The core's move keeps the count: what it takes it answers or starts, and what it ends it answers. -/
theorem coreTurn_commandCount {s t : State} (move : coreTurn s = .next t) : t.commandCount = s.commandCount := by
  rcases coreTurn_cases move with due | ⟨-, -, rfl⟩ | ⟨r, rest, -, oldest, ⟨why, -, rfl⟩ | ⟨i, -, run⟩⟩
  · rcases State.coreDue_cases due with ⟨T, inRead, -, rfl⟩ | ⟨T, offered, a, inWrite, -, rfl⟩
    · exact commandCount_complete _ (by simp [inRead])
    · exact commandCount_complete _ (by simp [inWrite])
  · rfl
  · exact (commandCount_respond _ _).trans (commandCount_taken oldest)
  · exact (exec_commandCount run).trans (commandCount_taken oldest)

/-- Issuing moves a command from the program to the request channel. -/
theorem issueTurn_commandCount (s : State) : (issueTurn s).commandCount = s.commandCount := by
  unfold issueTurn
  split
  next => rfl
  next r rest program =>
    split
    next => rfl
    next =>
      simp +arith [State.commandCount, program]

/-- Reading moves a response from the channel to those read. -/
theorem readTurn_commandCount (s : State) : (readTurn s).commandCount = s.commandCount := by
  unfold readTurn
  split
  next => rfl
  next r rest channel =>
    simp +arith [State.commandCount, channel]

/-- Settles O46: the core, the issuing and the reading keep the count, and no other but reset touches what is counted. -/
theorem oneResponsePerCommand : Obligations.OneResponsePerCommand := by
  unfold Obligations.OneResponsePerCommand
  intro s t move noReset
  rcases step_cases move with ⟨ag, -, core⟩ | ⟨ag, -, rfl⟩ | ⟨ag, -, rfl⟩ |
    ⟨_, draw, ag, -, ⟨-, rfl⟩ | ⟨src, T, -, -, -, -, rfl⟩⟩ |
    ⟨_, draw, ag, -, ⟨-, rfl⟩ | ⟨data, T, offered, -, -, -, -, rfl⟩⟩ |
    ⟨ag, -, ⟨-, rfl⟩ | ⟨src, -, -, rfl⟩⟩ | ⟨src, ag, -, -, -, rfl⟩ | ⟨data, ag, -, -, rfl⟩ | ⟨ag, turn, -⟩
  case inl =>
    have kept := coreTurn_commandCount core
    exact kept
  case inr.inl => exact issueTurn_commandCount _
  case inr.inr.inl => exact readTurn_commandCount _
  case inr.inr.inr.inr.inr.inr.inr.inr => exact absurd ⟨ag, turn⟩ noReset
  all_goals rfl

/-! ### Responses leave in command order (R32, R48) -/

/-- What a move from `s` to `t` may do to the responses that have left the core and to those it holds. -/
structure State.ResponsesFollow (s t : State) : Prop where
  /-- with nothing in flight before it, it holds nothing more and adds to what has left -/
  idle : s.adp = .idle → t.held = s.held ∧ ∃ new, t.delivered = s.delivered ++ new
  /-- with an operation in flight before and after it, nothing leaves and what it makes is held -/
  inFlight : s.adp ≠ .idle → t.adp ≠ .idle → t.delivered = s.delivered ∧ ∃ new, t.held = s.held ++ new
  /-- when it ends an operation, that one's response leaves first, then the held ones, then what it adds -/
  ends : s.adp ≠ .idle → t.adp = .idle → t.held = [] ∧ ∃ own new, t.delivered = s.delivered ++ own :: s.held ++ new

/-- A move that makes no response and ends no operation. -/
theorem State.ResponsesFollow.of_no_response {s t : State} (held : t.held = s.held)
    (delivered : t.delivered = s.delivered) (endsNothing : t.adp = .idle → s.adp = .idle) : s.ResponsesFollow t where
  idle _ := ⟨held, [], by simp [delivered]⟩
  inFlight _ _ := ⟨delivered, [], by simp [held]⟩
  ends inFlight ended := absurd (endsNothing ended) inFlight

/-- A move that places one response, and for the rest, `t`, leaves ADP, the held responses and those that have left. -/
theorem State.ResponsesFollow.of_respond {s t : State} (r : Response) (adp : t.adp = s.adp) (held : t.held = s.held)
    (delivered : t.delivered = s.delivered) : s.ResponsesFollow (t.respond r) where
  idle idle := by
    rw [t.respond_of_idle r (adp.trans idle), ← delivered]
    exact ⟨held, [r], (List.append_assoc _ _ _).symm⟩
  inFlight inFlight _ := by
    rw [t.respond_of_busy r (adp ▸ inFlight), ← held]
    exact ⟨delivered, [r], rfl⟩
  ends inFlight ended := absurd (adp.symm.trans ended) inFlight

/-- A move that ends the operation in flight with its response, and places the responses `new` after the held ones. -/
theorem State.ResponsesFollow.of_end {s t : State} (own : Response) (new : List Response) (inFlight : s.adp ≠ .idle)
    (ended : t.adp = .idle) (held : t.held = []) (delivered : t.delivered = s.delivered ++ own :: s.held ++ new) :
    s.ResponsesFollow t where
  idle idle := absurd idle inFlight
  inFlight _ goesOn := absurd ended goesOn
  ends _ _ := ⟨held, own, new, delivered⟩

/-- The end of the operation in flight (R48, R75, R80). -/
theorem complete_responsesFollow {s : State} (r : Response) (inFlight : s.adp ≠ .idle) :
    s.ResponsesFollow (s.complete r) :=
  .of_end r [] inFlight rfl rfl (by simp [State.delivered])

/-- The responses of a command follow; ABORT alone ends an operation, and its own OK comes last (R81). -/
theorem exec_responsesFollow {i : Instr} {s t : State} (run : exec i s = .next t) : s.ResponsesFollow t := by
  rcases exec_cases i s with ⟨r, e, -⟩ | ⟨-, T, -, e⟩ | ⟨-, T, b, -, -, e⟩ | ⟨-, T, -, -, e⟩ |
    ⟨idle, T, val, -, e⟩ | ⟨idle, T, -, e⟩ | ⟨T, inRead, -, e⟩ | ⟨T, offered, inWrite, -, e⟩ <;>
    obtain rfl := Host.Outcome.next.inj (e.symm.trans run)
  · exact .of_respond r rfl rfl rfl
  · exact .of_respond _ rfl rfl rfl
  · exact .of_respond _ rfl rfl rfl
  · exact .of_respond _ rfl rfl rfl
  · exact .of_no_response rfl rfl fun _ => idle
  · exact .of_no_response rfl rfl fun _ => idle
  · exact .of_end { Response.plain .cancelled with rlen := s.dec.count } [.plain .ok] (by simp [inRead]) rfl rfl
      (by simp [State.delivered])
  · exact .of_end (.plain .cancelled) [.plain .ok] (by simp [inWrite]) rfl rfl (by simp [State.delivered])

/-- The responses of the core's move follow. -/
theorem coreTurn_responsesFollow {s t : State} (move : coreTurn s = .next t) : s.ResponsesFollow t := by
  rcases coreTurn_cases move with due | ⟨-, -, rfl⟩ | ⟨r, rest, -, -, ⟨why, -, rfl⟩ | ⟨i, -, run⟩⟩
  · rcases State.coreDue_cases due with ⟨T, inRead, -, rfl⟩ | ⟨T, offered, a, inWrite, -, rfl⟩
    · exact complete_responsesFollow _ (by simp [inRead])
    · exact complete_responsesFollow _ (by simp [inWrite])
  · exact .of_no_response rfl rfl id
  · exact .of_respond _ rfl rfl rfl
  · obtain ⟨idle, inFlight, ends⟩ := exec_responsesFollow run
    exact ⟨idle, inFlight, ends⟩

/-- What the requester reads has left the core before and stays in its place (R18). -/
theorem readTurn_delivered (s : State) : (readTurn s).delivered = s.delivered := by
  unfold readTurn
  split
  next => rfl
  next r rest channel => simp [State.delivered, channel]

/-- The responses of every step but reset follow. -/
theorem step_responsesFollow {s t : State} (move : step s = .next t) (noReset : ¬ Stated.ResetMoves s) :
    s.ResponsesFollow t := by
  rcases step_cases move with ⟨ag, -, core⟩ | ⟨ag, -, rfl⟩ | ⟨ag, -, rfl⟩ |
    ⟨_, draw, ag, -, ⟨-, rfl⟩ | ⟨src, T, -, -, -, -, rfl⟩⟩ |
    ⟨_, draw, ag, -, ⟨-, rfl⟩ | ⟨data, T, offered, -, -, -, -, rfl⟩⟩ |
    ⟨ag, -, ⟨-, rfl⟩ | ⟨src, -, -, rfl⟩⟩ | ⟨src, ag, -, -, -, rfl⟩ | ⟨data, ag, -, -, rfl⟩ | ⟨ag, turn, -⟩
  case inl =>
    obtain ⟨idle, inFlight, ends⟩ := coreTurn_responsesFollow core
    exact ⟨idle, inFlight, ends⟩
  case inr.inl => exact .of_no_response (issueTurn_held _) (by simp [State.delivered]) (by simp)
  case inr.inr.inl => exact .of_no_response (readTurn_held _) (readTurn_delivered _) (by simp)
  case inr.inr.inr.inr.inr.inr.inr.inr => exact absurd ⟨ag, turn⟩ noReset
  all_goals exact .of_no_response rfl rfl id

/-- Settles O47: the three clauses of State.ResponsesFollow. -/
theorem heldResponsesFollow : Obligations.HeldResponsesFollow := by
  unfold Obligations.HeldResponsesFollow
  intro s t move noReset
  obtain ⟨idle, inFlight, ends⟩ := step_responsesFollow move noReset
  exact ⟨idle, inFlight, ends⟩

/-! ### The value of an unsigned form (R41, R57) -/

/-- Bit i of zz_enc_W(x) is the bit below it, complemented where x is negative (R55). -/
theorem getLsbD_zzEnc {w : Nat} (x : BitVec w) (i : Nat) (hi : i < w) :
    (zzEnc x).getLsbD i = ((decide (i ≠ 0) && x.getLsbD (i - 1)) ^^ x.msb) := by
  simp only [zzEnc, BitVec.getLsbD_xor, BitVec.getLsbD_shiftLeft, BitVec.getLsbD_sshiftRight, hi]
  by_cases first : i = 0
  · simp [first, BitVec.msb_eq_getLsbD_last, Nat.ne_zero_of_lt hi]
  · have outside : ¬ w - 1 + i < w := by omega
    simp [first, outside, Nat.not_le.2 hi]

/-- Bit i of zz_dec_W(u) is the bit above it, complemented where u is odd (R56). -/
theorem getLsbD_zzDec {w : Nat} (u : BitVec w) (i : Nat) (hi : i < w) :
    (zzDec u).getLsbD i = (u.getLsbD (i + 1) ^^ u.getLsbD 0) := by
  have one : BitVec.setWidth w 1#1 = 1#w := by bv_omega
  have mask : 0#w - (u &&& 1#w) = if u.getLsbD 0 then BitVec.allOnes w else 0#w := by
    rw [BitVec.and_one_eq_setWidth_ofBool_getLsbD]
    cases u.getLsbD 0 <;> simp [one, BitVec.neg_one_eq_allOnes]
  simp only [zzDec, BitVec.getLsbD_xor, mask]
  cases u.getLsbD 0 <;> simp [hi, Nat.add_comm]

/-- zz_dec_W undoes zz_enc_W at every width (R57). -/
theorem zzDec_zzEnc {w : Nat} (x : BitVec w) : zzDec (zzEnc x) = x := by
  refine BitVec.eq_of_getLsbD_eq fun i hi => ?_
  rw [getLsbD_zzDec _ _ hi, getLsbD_zzEnc x 0 (by omega)]
  by_cases last : i + 1 = w
  · have top : x.msb = x.getLsbD i := by rw [BitVec.msb_eq_getLsbD_last, show w - 1 = i by omega]
    simp [BitVec.getLsbD_of_ge _ _ last.ge, top]
  · rw [getLsbD_zzEnc x (i + 1) (by omega)]
    simp

/-- A value of a signed type is what its W-bit form reads as (R5). -/
theorem toInt_ofInt_of_inDomain {T : VType} {v : Int} (signed : T.signed = true) (domain : inDomain T v = true) :
    (BitVec.ofInt T.bits v).toInt = v := by
  simp only [inDomain, signed, if_true, Bool.and_eq_true, decide_eq_true_eq] at domain
  have width : 0 < T.bits := by cases h : T.width <;> simp [VType.bits, Width.bits, h]
  exact BitVec.toInt_ofInt_eq_self width domain.1 domain.2

/-- val_T undoes the unsigned form on the values of T (R41, R67). -/
theorem valueOf_unsignedForm {T : VType} {v : Int} (domain : inDomain T v = true) :
    valueOf T (unsignedForm T v) = v := by
  unfold valueOf unsignedForm
  split
  next signed => rw [BitVec.ofNat_toNat, BitVec.setWidth_eq, zzDec_zzEnc, toInt_ofInt_of_inDomain signed domain]
  next unsigned =>
    simp only [inDomain, if_neg unsigned, Bool.and_eq_true, decide_eq_true_eq] at domain
    exact Int.toNat_of_nonneg domain.1

/-! ### What the payloads of a byte sequence make up (R39, R61) -/

/-- Setting the continuation bit keeps the payload. -/
theorem payload_or_cont (b : Byte) : (b ||| 0x80).toNat % 128 = b.toNat % 128 := by revert b; decide

/-- Setting the continuation bit makes a continuation byte. -/
theorem contBit_or_cont (b : Byte) : contBit (b ||| 0x80) = true := by simp [contBit]

/-- One more payload above 7n bits stays within 7(n + 1) bits. -/
theorem add_payload_lt {U n : Nat} (b : Byte) (below : U < 2 ^ (7 * n)) :
    U + b.toNat % 128 * 2 ^ (7 * n) < 2 ^ (7 * (n + 1)) := by
  have group : b.toNat % 128 * 2 ^ (7 * n) ≤ 127 * 2 ^ (7 * n) := Nat.mul_le_mul_right _ (by omega)
  rw [Nat.mul_succ, Nat.pow_add]
  omega

/-- The payloads of k bytes make up a number of 7k bits. -/
theorem groupSum_lt (s : List Byte) : Stated.groupSum s < 2 ^ (7 * s.length) := by
  induction s with
  | nil => simp [Stated.groupSum]
  | cons b s ih =>
    rw [Stated.groupSum, List.length_cons, Nat.mul_succ, Nat.pow_add]
    omega

/-- Later bytes count above the 7 bits of each earlier one. -/
theorem groupSum_append (s t : List Byte) :
    Stated.groupSum (s ++ t) = Stated.groupSum s + 2 ^ (7 * s.length) * Stated.groupSum t := by
  induction s with
  | nil => simp [Stated.groupSum]
  | cons b s ih =>
    rw [List.cons_append, Stated.groupSum, Stated.groupSum, ih, List.length_cons, Nat.mul_succ 7, Nat.pow_add]
    ring

/-- Continuation bytes with payload 0 add nothing. -/
theorem groupSum_replicate_zero_group (k : Nat) : Stated.groupSum (List.replicate k 0x80) = 0 := by
  induction k with
  | zero => rfl
  | succ k ih => rw [List.replicate_succ, Stated.groupSum, ih]; rfl

/-- Padding with zero groups leaves the number as it is (R42). -/
theorem groupSum_padded (front : List Byte) (last : Byte) (k : Nat) :
    Stated.groupSum (front ++ [last ||| 0x80] ++ List.replicate k 0x80 ++ [0x00]) =
      Stated.groupSum (front ++ [last]) := by
  have zero : Stated.groupSum [0x00] = 0 := rfl
  have same : Stated.groupSum [last ||| 0x80] = Stated.groupSum [last] := by
    simp only [Stated.groupSum, payload_or_cont]
  rw [groupSum_append _ [0x00], zero, groupSum_append _ (List.replicate k 0x80), groupSum_replicate_zero_group,
    groupSum_append front, same, ← groupSum_append, Nat.mul_zero, Nat.mul_zero, Nat.add_zero]

/-- The encoder's bytes make up the number they encode, if there are groups enough for it. -/
theorem groupSum_encodeGroups (fuel u : Nat) (holds : u < 2 ^ (7 * fuel)) :
    Stated.groupSum (encodeGroups fuel u) = u := by
  induction fuel generalizing u with
  | zero =>
    obtain rfl : u = 0 := by simpa using holds
    rfl
  | succ fuel ih =>
    have rest : u / 128 < 2 ^ (7 * fuel) := by
      rw [Nat.mul_succ, Nat.pow_add] at holds
      omega
    have group : (BitVec.ofNat 8 (u % 128)).toNat % 128 = u % 128 := by
      rw [BitVec.toNat_ofNat]
      omega
    unfold encodeGroups
    split
    next more =>
      have cont : (0x80#8 ||| BitVec.ofNat 8 (u % 128)).toNat % 128 = u % 128 := by
        rw [BitVec.or_comm]
        exact (payload_or_cont _).trans group
      rw [Stated.groupSum, ih _ rest, cont, Nat.mod_add_div]
    next last =>
      rw [Stated.groupSum, Stated.groupSum, group]
      omega

/-- The bytes of an encoding make up the unsigned form of its value (R61). -/
theorem groupSum_encodeVar {T : VType} {v : Int} (domain : inDomain T v = true) :
    Stated.groupSum (encodeVar T v) = unsignedForm T v := by
  have tenGroups : T.bits ≤ 7 * 10 := (bits_le_val T).trans (by decide)
  exact groupSum_encodeGroups 10 _ ((unsignedForm_lt T v domain).trans_le (Nat.pow_le_pow_right (by decide) tenGroups))

/-- The bytes of an encoding before its last have the continuation bit set (R61). -/
theorem contBit_of_mem_front {fuel u : Nat} {front : List Byte} {last : Byte}
    (groups : encodeGroups fuel u = front ++ [last]) : ∀ b ∈ front, contBit b = true := by
  induction fuel generalizing u front with
  | zero => simp [encodeGroups] at groups
  | succ fuel ih =>
    cases front with
    | nil => simp
    | cons b front =>
      unfold encodeGroups at groups
      split at groups
      next more =>
        obtain ⟨rfl, rest⟩ := List.cons.inj groups
        simp only [List.mem_cons, forall_eq_or_imp]
        exact ⟨by simp [contBit], ih rest⟩
      next => simp at groups

/-! ### The decoder over a byte sequence, in numbers (R63, R67) -/

/-- ACC(U, n) for numbers U and n. -/
def accAt (U n : Nat) : DecState := .acc (BitVec.ofNat 128 U) (BitVec.ofNat 4 n)

/-- Step_T in ACC(U, n) in plain arithmetic: overflow, then the terminator, then the M(T)-byte limit (R67). -/
theorem stepDec_accAt (T : VType) (U n : Nat) (b : Byte) (short : n < maxSize T) (below : U < 2 ^ (7 * n)) :
    stepDec T (accAt U n) b =
      if 2 ^ T.bits ≤ U + b.toNat % 128 * 2 ^ (7 * n) then .failed .invalidData (BitVec.ofNat 4 (n + 1))
      else if contBit b = false then .done (valueOf T (U + b.toNat % 128 * 2 ^ (7 * n))) (BitVec.ofNat 4 (n + 1))
      else if n + 1 = maxSize T then .failed .invalidData (BitVec.ofNat 4 (n + 1))
      else accAt (U + b.toNat % 128 * 2 ^ (7 * n)) (n + 1) := by
  have ten := maxSize_le_ten T
  have count : (BitVec.ofNat 4 n).toNat = n := by rw [BitVec.toNat_ofNat]; omega
  have count' : (BitVec.ofNat 4 (n + 1)).toNat = n + 1 := by rw [BitVec.toNat_ofNat]; omega
  have counted : (BitVec.ofNat 4 n + 1 : Count) = BitVec.ofNat 4 (n + 1) := (BitVec.ofNat_add n 1).symm
  have acc : (BitVec.ofNat 128 U).toNat = U := by
    rw [BitVec.toNat_ofNat]
    exact Nat.mod_eq_of_lt (below.trans_le (Nat.pow_le_pow_right (by decide) (by omega)))
  have sum := acc_or_payload_toNat (BitVec.ofNat 128 U) (BitVec.ofNat 4 n) b (by omega) (by rwa [count, acc])
  rw [count, acc] at sum
  simp only [stepDec, accAt, count, counted, count', sum]
  rw [← sum, BitVec.ofNat_toNat, BitVec.setWidth_eq]

/-- Over continuation bytes, fewer than M(T), whose number fits, the decoder stays in ACC and adds it up. -/
theorem foldl_stepDec_accAt (T : VType) (s : List Byte) (U n : Nat) (goOn : ∀ b ∈ s, contBit b = true)
    (short : n + s.length < maxSize T) (below : U < 2 ^ (7 * n))
    (fits : U + Stated.groupSum s * 2 ^ (7 * n) < 2 ^ T.bits) :
    s.foldl (stepDec T) (accAt U n) = accAt (U + Stated.groupSum s * 2 ^ (7 * n)) (n + s.length) := by
  induction s generalizing U n with
  | nil => simp [Stated.groupSum]
  | cons b s ih =>
    rw [List.length_cons] at short
    have regroup : U + Stated.groupSum (b :: s) * 2 ^ (7 * n) =
        U + b.toNat % 128 * 2 ^ (7 * n) + Stated.groupSum s * 2 ^ (7 * (n + 1)) := by
      rw [Stated.groupSum, Nat.mul_succ 7 n, Nat.pow_add]
      ring
    rw [regroup] at fits ⊢
    have first : stepDec T (accAt U n) b = accAt (U + b.toNat % 128 * 2 ^ (7 * n)) (n + 1) := by
      rw [stepDec_accAt T U n b (by omega) below, if_neg (by omega), if_neg (by simp [goOn b]), if_neg (by omega)]
    rw [List.foldl_cons, first, ih _ _ (fun c inRest => goOn c (.tail b inRest)) (by omega) (add_payload_lt b below) fits,
      List.length_cons, Nat.add_assoc n 1, Nat.add_comm 1]

/-- Continuation bytes and a terminator, at most M(T) in all, whose number fits, decode to its value (R63). -/
theorem sliceDecode_of_terminated (T : VType) (s : List Byte) (b : Byte) (goOn : ∀ c ∈ s, contBit c = true)
    (ends : contBit b = false) (short : s.length < maxSize T) (fits : Stated.groupSum (s ++ [b]) < 2 ^ T.bits) :
    sliceDecode T (s ++ [b]) = some (valueOf T (Stated.groupSum (s ++ [b])), BitVec.ofNat 4 (s.length + 1)) := by
  have sum : Stated.groupSum (s ++ [b]) = Stated.groupSum s + b.toNat % 128 * 2 ^ (7 * s.length) := by
    simp [groupSum_append, Stated.groupSum, Nat.mul_comm]
  have front : s.foldl (stepDec T) (accAt 0 0) = accAt (Stated.groupSum s) s.length := by
    simpa using foldl_stepDec_accAt T s 0 0 goOn (by omega) (by simp) (by simp; omega)
  calc sliceDecode T (s ++ [b]) = sliceLoop T (s.foldl (stepDec T) (accAt 0 0)) [b] := sliceLoop_append T s [b] _
    _ = sliceLoop T (stepDec T (accAt (Stated.groupSum s) s.length) b) [] := by rw [front]; rfl
    _ = some (valueOf T (Stated.groupSum (s ++ [b])), BitVec.ofNat 4 (s.length + 1)) := by
      rw [stepDec_accAt T _ _ b short (groupSum_lt s), ← sum, if_neg (by omega), if_pos ends, sliceLoop_done]

/-- Settles O22: the padded bytes are continuation bytes and a terminator that make up the same number as the encoding. -/
theorem paddedEncodingAccepted : Obligations.PaddedEncodingAccepted := by
  unfold Obligations.PaddedEncodingAccepted
  intro T v front last k domain encoding short
  have sum : Stated.groupSum (front ++ [last ||| 0x80] ++ List.replicate k 0x80 ++ [0x00]) = unsignedForm T v :=
    calc Stated.groupSum (front ++ [last ||| 0x80] ++ List.replicate k 0x80 ++ [0x00])
        = Stated.groupSum (encodeVar T v) := by rw [groupSum_padded, encoding]
      _ = unsignedForm T v := groupSum_encodeVar domain
  have goOn : ∀ b ∈ front ++ [last ||| 0x80] ++ List.replicate k 0x80, contBit b = true := by
    simp only [List.mem_append, List.mem_singleton, List.mem_replicate]
    rintro b ((inFront | rfl) | ⟨-, rfl⟩)
    · exact contBit_of_mem_front encoding b inFront
    · exact contBit_or_cont last
    · rfl
  have count : (front ++ [last ||| 0x80] ++ List.replicate k 0x80).length + 1 = front.length + k + 2 := by
    simp
    omega
  have fits := unsignedForm_lt T v domain
  rw [sliceDecode_of_terminated T _ 0x00 goOn rfl (by omega) (by rwa [sum]), sum, valueOf_unsignedForm domain, count]

end Sys2Proof.Machine

namespace Sys2Proof.Machine.Asm

/-! ### The operand fields that the assembler places (R52) -/

/-- W bits widened with zeros are extended as an unsigned operand is. -/
theorem canonicalUnsigned_setWidth (w : Width) (x : BitVec w.bits) : canonicalUnsigned w (x.setWidth 64) = true := by
  have fits : w.bits ≤ 64 := bits_le_val ⟨w, false⟩
  simp [canonicalUnsigned, BitVec.setWidth_setWidth_of_le, fits]

/-- The low bits of a word widened with its sign are the word. -/
theorem setWidth_signExtend {w v : Nat} (x : BitVec w) (wider : w ≤ v) : (x.signExtend v).setWidth w = x := by
  refine BitVec.eq_of_getLsbD_eq fun i hi => ?_
  rw [BitVec.getLsbD_setWidth, BitVec.getLsbD_signExtend]
  simp [hi, hi.trans_le wider]

/-- W bits widened with their sign are extended as a signed operand is. -/
theorem canonicalSigned_signExtend (w : Width) (x : BitVec w.bits) : canonicalSigned w (x.signExtend 64) = true := by
  have fits : w.bits ≤ 64 := bits_le_val ⟨w, true⟩
  simp [canonicalSigned, setWidth_signExtend, fits]

/-- ext_T places every value as an operand of type T. -/
theorem canonicalVal_extendResult (T : VType) (v : Int) : canonicalVal T (extendResult T v) = true := by
  unfold canonicalVal extendResult
  split
  next => exact canonicalSigned_signExtend _ _
  next => exact canonicalUnsigned_setWidth _ _

/-- Lane k holds byte k of the sequence, or 0 past its end. -/
theorem toList_ofList (s : List Byte) : (Lanes.ofList s).toList = (List.range 10).map fun k => s.getD k 0 := rfl

/-- The lanes past the bytes of a slice are 0, and slen counts ten lanes at most. -/
theorem canonicalSlice_ofList (s : List Byte) :
    canonicalSlice (Lanes.ofList s) (BitVec.ofNat 4 (min s.length 10)) = true := by
  have slen : (BitVec.ofNat 4 (min s.length 10)).toNat = min s.length 10 := by rw [BitVec.toNat_ofNat]; omega
  have unused : ∀ b ∈ (Lanes.ofList s).toList.drop (min s.length 10), b = 0 := by
    intro b lane
    obtain ⟨j, inLanes, rfl⟩ := List.mem_drop_iff_getElem.1 lane
    have past : s.length ≤ min s.length 10 + j := by
      rw [toList_ofList, List.length_map, List.length_range] at inLanes
      omega
    simp only [toList_ofList, List.getElem_map, List.getElem_range, List.getD_eq_default _ _ past]
  simpa [canonicalSlice, slen] using unused

/-! When a command of each operation is well-formed, by the operand its rule names. -/

theorem wf_zzenc (w : Width) (val : Val) : (Instr.zzenc w val).wf = canonicalVal ⟨w, true⟩ val := by cases w <;> rfl
theorem wf_zzdec (w : Width) (val : Val) : (Instr.zzdec w val).wf = canonicalVal ⟨w, false⟩ val := by cases w <;> rfl
theorem wf_vmaxsz (T : VType) : (Instr.vmaxsz T).wf = true := by rcases T with ⟨_ | _ | _ | _, _ | _⟩ <;> rfl
theorem wf_vrspace (T : VType) (val : Val) : (Instr.vrspace T val).wf = canonicalVal T val := by
  rcases T with ⟨_ | _ | _ | _, _ | _⟩ <;> rfl
theorem wf_venc (T : VType) (val : Val) : (Instr.venc T val).wf = canonicalVal T val := by
  rcases T with ⟨_ | _ | _ | _, _ | _⟩ <;> rfl
theorem wf_vdec (T : VType) (sb : Lanes) (slen : BitVec 4) : (Instr.vdec T sb slen).wf = canonicalSlice sb slen := by
  rcases T with ⟨_ | _ | _ | _, _ | _⟩ <;> rfl
theorem wf_dinit (T : VType) : (Instr.dinit T).wf = true := by rcases T with ⟨_ | _ | _ | _, _ | _⟩ <;> rfl
theorem wf_wrvar (T : VType) (val : Val) : (Instr.wrvar T val).wf = canonicalVal T val := by
  rcases T with ⟨_ | _ | _ | _, _ | _⟩ <;> rfl
theorem wf_rdvar (T : VType) : (Instr.rdvar T).wf = true := by rcases T with ⟨_ | _ | _ | _, _ | _⟩ <;> rfl

/-- The answer is the request of a well-formed command, or a refusal. -/
def Answer.WellFormed : Answer → Prop
  | .command r => ∃ i, encode i = r ∧ i.wf = true
  | .refused _ => True

/-! ### What each part of the assembler answers -/

theorem withInteger_wellFormed (dom : VType) (o : Operand) (command : Val → Instr)
    (wf : ∀ val, (command val).wf = canonicalVal dom val) : (withInteger dom o command).WellFormed := by
  unfold withInteger
  split
  next n =>
    split
    next => exact ⟨_, rfl, (wf _).trans (canonicalVal_extendResult dom _)⟩
    next => trivial
  next => trivial

theorem withNothing_wellFormed (o : Operand) (command : Instr) (wf : command.wf = true) :
    (withNothing o command).WellFormed := by
  unfold withNothing
  split
  next => exact ⟨command, rfl, wf⟩
  next => trivial

theorem withSlice_wellFormed (o : Operand) (command : Lanes → BitVec 4 → Instr)
    (wf : ∀ sb slen, (command sb slen).wf = canonicalSlice sb slen) : (withSlice o command).WellFormed := by
  unfold withSlice
  split
  next ns =>
    split
    next s _ => exact ⟨_, rfl, (wf _ _).trans (canonicalSlice_ofList s)⟩
    next => trivial
  next => trivial

theorem withByte_wellFormed (o : Operand) : (withByte o Instr.dstep).WellFormed := by
  unfold withByte
  split
  next n =>
    split
    next b _ => exact ⟨.dstep b, rfl, rfl⟩
    next => trivial
  next => trivial

theorem withType_wellFormed (t : Option VType) (k : VType → Answer) (wf : ∀ T, (k T).WellFormed) :
    (withType t k).WellFormed := by
  cases t with
  | none => trivial
  | some T => exact wf T

theorem withSignedType_wellFormed (t : Option VType) (k : Width → Answer) (wf : ∀ w, (k w).WellFormed) :
    (withSignedType t k).WellFormed := by
  unfold withSignedType
  split
  next w => exact wf w
  next => trivial

theorem withoutType_wellFormed (t : Option VType) (k : Answer) (wf : k.WellFormed) :
    (withoutType t k).WellFormed := by
  cases t with
  | none => exact wf
  | some T => trivial

/-- Each mnemonic takes its type and its operand as its own command needs them (R49, R52). -/
theorem assembleLine_wellFormed (l : Line) : (assembleLine l).WellFormed := by
  obtain ⟨m, t, o⟩ := l
  cases m with
  | zzenc => exact withSignedType_wellFormed _ _ fun w => withInteger_wellFormed _ _ _ (wf_zzenc w)
  | zzdec => exact withSignedType_wellFormed _ _ fun w => withInteger_wellFormed _ _ _ (wf_zzdec w)
  | vmaxsz => exact withType_wellFormed _ _ fun T => withNothing_wellFormed _ _ (wf_vmaxsz T)
  | vrspace => exact withType_wellFormed _ _ fun T => withInteger_wellFormed _ _ _ (wf_vrspace T)
  | venc => exact withType_wellFormed _ _ fun T => withInteger_wellFormed _ _ _ (wf_venc T)
  | vdec => exact withType_wellFormed _ _ fun T => withSlice_wellFormed _ _ (wf_vdec T)
  | dinit => exact withType_wellFormed _ _ fun T => withNothing_wellFormed _ _ (wf_dinit T)
  | dstep => exact withoutType_wellFormed _ _ (withByte_wellFormed _)
  | deof => exact withoutType_wellFormed _ _ (withNothing_wellFormed _ _ rfl)
  | wrvar => exact withType_wellFormed _ _ fun T => withInteger_wellFormed _ _ _ (wf_wrvar T)
  | rdvar => exact withType_wellFormed _ _ fun T => withNothing_wellFormed _ _ (wf_rdvar T)
  | abort => exact withoutType_wellFormed _ _ (withNothing_wellFormed _ _ rfl)

theorem lineOf_wellFormed (m : Mnemonic) (t : Option VType) (operand : List Char) :
    (lineOf m t operand).WellFormed := by
  unfold lineOf
  split
  next o _ => exact assembleLine_wellFormed _
  next => trivial

/-- A line of text is refused or read as a mnemonic with its type and operand. -/
theorem assemble_wellFormed (line : List Char) : (assemble line).WellFormed := by
  unfold assemble
  split
  next word _ =>
    split
    next m _ => exact lineOf_wellFormed m none _
    next => trivial
  next word type _ =>
    split
    next m T _ _ => exact lineOf_wellFormed m (some T) _
    next => trivial
    next => trivial
  next => trivial

/-- Settles O59: an answer that is a request is a well-formed command's encoding, and the decoder undoes the encoder. -/
theorem assembledCommandsWellFormed : Obligations.AssembledCommandsWellFormed := by
  unfold Obligations.AssembledCommandsWellFormed
  intro line r assembled
  have emitted := assemble_wellFormed line
  rw [assembled] at emitted
  obtain ⟨i, rfl, wf⟩ := emitted
  exact ⟨i, decode_encode i, rfl, wf⟩

end Sys2Proof.Machine.Asm
end

section
/-! Proofs of the family 40_zigzag: the two zigzag maps in plain arithmetic (R55 to R58), and the commands that answer with
them. -/

namespace Sys2Proof.Machine

/-! ### The zigzag maps (R57, R58) -/

/-- zz_enc_W undoes zz_dec_W at every width (R57). -/
theorem zzEnc_zzDec {w : Nat} (u : BitVec w) : zzEnc (zzDec u) = u := by
  refine BitVec.eq_of_getLsbD_eq fun i hi => ?_
  have sign : (zzDec u).msb = u.getLsbD 0 := by
    rw [BitVec.msb_eq_getLsbD_last, getLsbD_zzDec u _ (by omega), BitVec.getLsbD_of_ge u _ (by omega), Bool.false_xor]
  rw [getLsbD_zzEnc _ _ hi, sign]
  cases i with
  | zero => simp
  | succ i => simp [getLsbD_zzDec u i (by omega)]

/-- On a word with the sign bit clear zz_enc_W only shifts (R55). -/
theorem zzEnc_of_msb_false {w : Nat} {x : BitVec w} (sign : x.msb = false) : zzEnc x = x <<< 1 := by
  refine BitVec.eq_of_getLsbD_eq fun i hi => ?_
  rw [getLsbD_zzEnc x i hi, sign, BitVec.getLsbD_shiftLeft]
  simp [hi]

/-- On a word with the sign bit set zz_enc_W shifts and complements (R55). -/
theorem zzEnc_of_msb_true {w : Nat} {x : BitVec w} (sign : x.msb = true) : zzEnc x = ~~~(x <<< 1) := by
  refine BitVec.eq_of_getLsbD_eq fun i hi => ?_
  rw [getLsbD_zzEnc x i hi, sign, BitVec.getLsbD_not, BitVec.getLsbD_shiftLeft]
  simp [hi]

/-- zz_enc_W has its closed form (R58). -/
theorem toNat_zzEnc {w : Nat} (x : BitVec w) : (zzEnc x).toNat = Stated.zigzagOf x.toInt := by
  have double : x.toNat <<< 1 = 2 * x.toNat := by rw [Nat.shiftLeft_eq, Nat.pow_one, Nat.mul_comm]
  unfold Stated.zigzagOf
  cases sign : x.msb with
  | false =>
    have small := BitVec.msb_eq_false_iff_two_mul_lt.1 sign
    rw [zzEnc_of_msb_false sign, BitVec.toNat_shiftLeft, double, Nat.mod_eq_of_lt small,
      BitVec.toInt_eq_toNat_of_msb sign, if_pos (Int.natCast_nonneg _)]
    omega
  | true =>
    have below := x.isLt
    have large := BitVec.msb_eq_true_iff_two_mul_ge.1 sign
    have wrapped : 2 * x.toNat % 2 ^ w = 2 * x.toNat - 2 ^ w := by
      rw [Nat.mod_eq_sub_mod large, Nat.mod_eq_of_lt (by omega)]
    have value : x.toInt = x.toNat - (2 ^ w : Nat) := by rw [BitVec.toInt_eq_msb_cond, sign, if_pos rfl]
    rw [zzEnc_of_msb_true sign, BitVec.toNat_not, BitVec.toNat_shiftLeft, double, wrapped, value,
      if_neg (by omega)]
    omega

/-- The closed forms are inverse to each other (R57, R58). -/
theorem unzigzagOf_zigzagOf (x : Int) : Stated.unzigzagOf (Stated.zigzagOf x) = x := by
  unfold Stated.unzigzagOf Stated.zigzagOf
  split <;> split <;> omega

/-- zz_dec_W has its closed form: u is the zigzag form of zz_dec_W(u), and the closed form undoes that (R57, R58). -/
theorem toInt_zzDec {w : Nat} (u : BitVec w) : (zzDec u).toInt = Stated.unzigzagOf u.toNat := by
  have form : u.toNat = Stated.zigzagOf (zzDec u).toInt := by rw [← toNat_zzEnc, zzEnc_zzDec]
  rw [form, unzigzagOf_zigzagOf]

/-- Settles O9: at every width, bit by bit. -/
theorem zigzagBijection : Obligations.ZigzagBijection := by
  unfold Obligations.ZigzagBijection
  exact fun w => ⟨zzDec_zzEnc, zzEnc_zzDec⟩

/-- Settles O10: the encoder's form by the sign of x, the decoder's from it and the bijection. -/
theorem zigzagClosedForms : Obligations.ZigzagClosedForms := by
  unfold Obligations.ZigzagClosedForms
  exact fun w => ⟨toNat_zzEnc, toInt_zzDec⟩

/-! ### Commands that answer at once (R20, R86) -/

/-- A command that checks for BUSY first is BUSY in flight (R84, R86). -/
theorem busyInFlight_of_unlessBusy {i : Instr} {effect : State → State}
    (run : ∀ s, exec i s = s.unlessBusy (effect s)) : Stated.BusyInFlight i :=
  fun s inFlight => (run s).trans (s.unlessBusy_of_busy _ inFlight)

/-- A command that answers unless it is BUSY only answers when ADP is IDLE (R48). -/
theorem answersOnly_of_unlessBusy_respond {i : Instr} {r : Response}
    (run : ∀ s, exec i s = s.unlessBusy (s.respond r)) : Stated.AnswersOnly i r := by
  intro s idle
  rw [run, s.unlessBusy_of_idle _ idle, s.respond_of_idle r idle]

/-! ### The zigzag commands (R55, R56) -/

/-- The words of zzenc.iW, whatever the other fields (R46, R49). -/
theorem ownWord_zzenc (w : Width) : Stated.OwnWord (wordOf 0x0 ⟨w, true⟩) fun r => Instr.zzenc w r.val := by
  intro r word
  unfold decode
  rw [word]
  cases w <;> rfl

/-- The words of zzdec.iW, whatever the other fields (R46, R49). -/
theorem ownWord_zzdec (w : Width) : Stated.OwnWord (wordOf 0x1 ⟨w, true⟩) fun r => Instr.zzdec w r.val := by
  intro r word
  unfold decode
  rw [word]
  cases w <;> rfl

/-- The words of OP 0x0 and 0x1 with S = 0 are illegal (R50). -/
theorem decode_illegal_of_zigzag_unsigned (r : Request) (op : r.cmd.toNat / 16 ≤ 1) (unsigned : r.cmd.toNat % 8 ≤ 3) :
    ∃ why, decode r = .illegal why := by
  have noSign : r.cmd.getLsbD 2 = false := by
    rw [← BitVec.testBit_toNat, Nat.testBit_eq_decide_div_mod_eq, decide_eq_false_iff_not]
    omega
  rw [decode_illegal_iff, decode_isNone_cmd, decode_ofCmd_isNone_iff]
  exact .inr (.inr (.inl ⟨op, noSign⟩))

/-- ZZENC.iW's result is the closed form of zz_enc_W, extended with zeros (R55, R58). -/
theorem zzencResponse_eq_zigzagOf (w : Width) (val : Val) :
    zzencResponse w val =
      { Response.plain .ok with rval := BitVec.ofNat 64 (Stated.zigzagOf (val.setWidth w.bits).toInt) } := by
  rw [← toNat_zzEnc, BitVec.ofNat_toNat]
  rfl

/-- ZZDEC.iW's result is the closed form of zz_dec_W, extended with its sign (R56, R58). -/
theorem zzdecResponse_eq_unzigzagOf (w : Width) (val : Val) :
    zzdecResponse w val =
      { Response.plain .ok with rval := BitVec.ofInt 64 (Stated.unzigzagOf (val.setWidth w.bits).toNat) } := by
  rw [← toInt_zzDec]
  rfl

/-- ZZENC.iW's word, its BUSY answer and its result (R55). -/
theorem zzencAt (w : Width) : Stated.ZzencAt (wordOf 0x0 ⟨w, true⟩) w (Instr.zzenc w) :=
  ⟨ownWord_zzenc w, fun val => ⟨busyInFlight_of_unlessBusy (exec_zzenc w val),
    zzencResponse_eq_zigzagOf w val ▸ answersOnly_of_unlessBusy_respond (exec_zzenc w val)⟩⟩

/-- ZZDEC.iW's word, its BUSY answer and its result (R56). -/
theorem zzdecAt (w : Width) : Stated.ZzdecAt (wordOf 0x1 ⟨w, true⟩) w (Instr.zzdec w) :=
  ⟨ownWord_zzdec w, fun val => ⟨busyInFlight_of_unlessBusy (exec_zzdec w val),
    zzdecResponse_eq_unzigzagOf w val ▸ answersOnly_of_unlessBusy_respond (exec_zzdec w val)⟩⟩

/-- Settles O7: R55 at each width, and the words with S = 0 by R50. -/
theorem zzencAnswersZigzag : Obligations.ZzencAnswersZigzag := by
  unfold Obligations.ZzencAnswersZigzag
  refine ⟨zzencAt .w8, zzencAt .w16, zzencAt .w32, zzencAt .w64, fun r top => ?_⟩
  exact decode_illegal_of_zigzag_unsigned r (by omega) (by omega)

/-- Settles O8: R56 at each width, and the words with S = 0 by R50. -/
theorem zzdecAnswersInverse : Obligations.ZzdecAnswersInverse := by
  unfold Obligations.ZzdecAnswersInverse
  refine ⟨zzdecAt .w8, zzdecAt .w16, zzdecAt .w32, zzdecAt .w64, fun r bottom top => ?_⟩
  exact decode_illegal_of_zigzag_unsigned r (by omega) (by omega)

end Sys2Proof.Machine
end

section
/-! Proofs of the family 41_codec: the slice decoder against the conditions of R63, the encoder against the minimal encoding
of R39 and R42, the laws of R64 to R66, and the commands that answer with them (R59 to R62). -/

namespace Sys2Proof.Machine

/-! ### The slice decoder as a fold (R63, R65, R67) -/

/-- A slice decodes exactly if Step_T over its bytes ends in DONE, to that value and count (R63). -/
theorem sliceDecode_eq_some_iff_done {T : VType} {s : List Byte} {v : Int} {n : Count} :
    sliceDecode T s = some (v, n) ↔ s.foldl (stepDec T) (.acc 0 0) = .done v n := by
  have fold : sliceDecode T s = sliceLoop T (s.foldl (stepDec T) (.acc 0 0)) [] := by
    rw [← sliceLoop_append, List.append_nil, sliceDecode]
  rw [fold]
  cases s.foldl (stepDec T) (.acc 0 0) <;> simp

/-- Bytes after the end of a decode change nothing (R65). -/
theorem sliceDecode_append_of_some {T : VType} {s : List Byte} {v : Int} {n : Count}
    (decoded : sliceDecode T s = some (v, n)) (t : List Byte) : sliceDecode T (s ++ t) = some (v, n) := by
  rw [sliceDecode, sliceLoop_append, sliceDecode_eq_some_iff_done.1 decoded, sliceLoop_done]

/-- A slice within which the machine failed decodes to nothing, whatever follows (R65). -/
theorem sliceDecode_append_of_failed {T : VType} {s : List Byte} {k : FailKind} {n : Count}
    (failed : s.foldl (stepDec T) (.acc 0 0) = .failed k n) (t : List Byte) : sliceDecode T (s ++ t) = none := by
  rw [sliceDecode, sliceLoop_append, failed, sliceLoop_failed]

/-- A last byte adds its payload above the groups before it (R63). -/
theorem groupSum_concat (s : List Byte) (b : Byte) :
    Stated.groupSum (s ++ [b]) = Stated.groupSum s + b.toNat % 128 * 2 ^ (7 * s.length) := by
  simp [groupSum_append, Stated.groupSum, Nat.mul_comm]

/-- As long as the machine is in ACC it has read continuation bytes, fewer than M(T), and added up their payloads. -/
theorem acc_of_foldl_stepDec {T : VType} {s : List Byte} {bits : Acc} {n : Count}
    (going : s.foldl (stepDec T) (.acc 0 0) = .acc bits n) :
    (∀ b ∈ s, contBit b = true) ∧ s.length < maxSize T ∧ .acc bits n = accAt (Stated.groupSum s) s.length := by
  induction s using List.reverseRecOn generalizing bits n with
  | nil => exact ⟨by simp, Nat.two_pos.trans_le (two_le_maxSize T), going.symm⟩
  | append_singleton s b ih =>
    rw [List.foldl_concat] at going
    cases before : s.foldl (stepDec T) (.acc 0 0) with
    | done v m => rw [before] at going; cases going
    | failed k m => rw [before] at going; cases going
    | acc bits' m =>
      obtain ⟨goOn, short, sum⟩ := ih before
      rw [before, sum, stepDec_accAt T _ _ b short (groupSum_lt s)] at going
      split_ifs at going with tooBig ends limit
      refine ⟨?_, ?_, ?_⟩
      · simpa [or_imp, forall_and] using ⟨goOn, Bool.not_eq_false _ ▸ ends⟩
      · rw [List.length_append, List.length_singleton]
        omega
      · rw [← going, groupSum_concat, List.length_append, List.length_singleton]

/-! ### The conditions of R63 -/

/-- The closed form of the value is the model's on the unsigned forms of T (R58, R67). -/
theorem valueOf_eq_valueFrom {T : VType} {U : Nat} (fits : U < 2 ^ T.bits) : valueOf T U = Stated.valueFrom T U := by
  simp only [valueOf, Stated.valueFrom, toInt_zzDec, BitVec.toNat_ofNat, Nat.mod_eq_of_lt fits]

/-- The conditions of R63 hold of continuation bytes and a terminator, with anything after them, at most M(T) up to the
terminator, whose number fits. -/
theorem sliceReads_of_terminated {T : VType} (front : List Byte) (b : Byte) (rest : List Byte)
    (goOn : ∀ c ∈ front, contBit c = true) (ends : contBit b = false) (short : front.length < maxSize T)
    (fits : Stated.groupSum (front ++ [b]) < 2 ^ T.bits) :
    Stated.SliceReads T (front ++ [b] ++ rest) (valueOf T (Stated.groupSum (front ++ [b]))) (front.length + 1) := by
  have read : (front ++ [b] ++ rest).take (front.length + 1) = front ++ [b] := List.take_left' (by simp)
  refine ⟨by omega, by omega, by simp, ?_, by rwa [read], by rw [read, valueOf_eq_valueFrom fits]⟩
  intro i c at_i below
  rcases Nat.lt_or_eq_of_le (Nat.lt_succ_iff.1 below) with inFront | rfl
  · rw [List.append_assoc, List.getElem?_append_left inFront] at at_i
    exact iff_of_true (goOn c (List.mem_of_getElem? at_i)) (by omega)
  · obtain rfl : b = c := by simpa using at_i
    exact iff_of_false (by simpa [contBit] using ends) (by omega)

/-- Conversely, a slice of which the conditions of R63 hold splits at its terminator. -/
theorem terminated_of_sliceReads {T : VType} {s : List Byte} {v : Int} {n : Nat} (reads : Stated.SliceReads T s v n) :
    ∃ front b rest, s = front ++ [b] ++ rest ∧ front.length + 1 = n ∧ (∀ c ∈ front, contBit c = true) ∧
      contBit b = false := by
  obtain ⟨one, -, long, bits, -, -⟩ := reads
  have last : n - 1 < s.length := by omega
  refine ⟨s.take (n - 1), s[n - 1], s.drop n, ?_, by rw [List.length_take]; omega, ?_, ?_⟩
  · rw [List.take_append_getElem, Nat.sub_add_cancel one, List.take_append_drop]
  · intro c inFront
    obtain ⟨i, below, rfl⟩ := List.mem_take_iff_getElem.1 inFront
    exact (bits i _ (List.getElem?_eq_getElem _) (by omega)).2 (by omega)
  · have := bits (n - 1) _ (List.getElem?_eq_getElem last) (by omega)
    simpa [contBit, Nat.sub_add_cancel one] using this

/-- The conditions of R63 look at no byte past the terminator (R65). -/
theorem sliceReads_append {T : VType} {s : List Byte} {v : Int} {n : Nat} (reads : Stated.SliceReads T s v n)
    (t : List Byte) : Stated.SliceReads T (s ++ t) v n := by
  obtain ⟨one, short, long, bits, fits, value⟩ := reads
  refine ⟨one, short, by rw [List.length_append]; omega, fun i b at_i below => ?_, ?_, ?_⟩
  · exact bits i b (by rwa [List.getElem?_append_left (by omega)] at at_i) below
  all_goals rwa [List.take_append_of_le_length long]

/-- When the machine ends in DONE, the conditions of R63 hold of what it read: up to the terminator it was in ACC. -/
theorem sliceReads_of_foldl_done {T : VType} {s : List Byte} {v : Int} {c : Count}
    (done : s.foldl (stepDec T) (.acc 0 0) = .done v c) : ∃ n, Stated.SliceReads T s v n ∧ c = BitVec.ofNat 4 n := by
  induction s using List.reverseRecOn generalizing v c with
  | nil => cases done
  | append_singleton s b ih =>
    rw [List.foldl_concat] at done
    cases before : s.foldl (stepDec T) (.acc 0 0) with
    | failed k m => rw [before] at done; cases done
    | done v' c' =>
      rw [before] at done
      cases done
      obtain ⟨n, reads, count⟩ := ih before
      exact ⟨n, sliceReads_append reads [b], count⟩
    | acc bits m =>
      obtain ⟨goOn, short, sum⟩ := acc_of_foldl_stepDec before
      rw [before, sum, stepDec_accAt T _ _ b short (groupSum_lt s)] at done
      split_ifs at done with tooBig ends limit
      case neg => cases done
      rw [← groupSum_concat] at done tooBig
      cases done
      have reads := sliceReads_of_terminated s b [] goOn ends short (by omega)
      exact ⟨s.length + 1, by rwa [List.append_nil] at reads, rfl⟩

/-- SliceDecode_T gives a value and count exactly if the conditions of R63 hold of them. -/
theorem sliceDecode_eq_some_iff {T : VType} {s : List Byte} {v : Int} {c : Count} :
    sliceDecode T s = some (v, c) ↔ ∃ n, Stated.SliceReads T s v n ∧ c = BitVec.ofNat 4 n := by
  constructor
  · exact fun decoded => sliceReads_of_foldl_done (sliceDecode_eq_some_iff_done.1 decoded)
  · rintro ⟨n, reads, rfl⟩
    obtain ⟨front, b, rest, rfl, rfl, goOn, ends⟩ := terminated_of_sliceReads reads
    obtain ⟨-, short, -, -, fits, rfl⟩ := reads
    rw [List.take_left' (by simp)] at fits ⊢
    rw [← valueOf_eq_valueFrom fits]
    exact sliceDecode_append_of_some (sliceDecode_of_terminated T front b goOn ends short fits) rest

/-- SliceDecode_T gives nothing exactly if the conditions of R63 hold of no value and count. -/
theorem sliceDecode_eq_none_iff {T : VType} {s : List Byte} :
    sliceDecode T s = none ↔ ¬ ∃ v n, Stated.SliceReads T s v n := by
  rw [← not_iff_not, not_not, ← ne_eq, Option.ne_none_iff_exists']
  simp [sliceDecode_eq_some_iff]

/-- A slice of continuation bytes alone has no value: it has no terminator (R63). -/
theorem sliceDecode_of_all_cont {T : VType} {s : List Byte} (goOn : ∀ b ∈ s, contBit b = true) :
    sliceDecode T s = none := by
  rw [sliceDecode_eq_none_iff]
  rintro ⟨v, n, reads⟩
  obtain ⟨front, b, rest, rfl, -, -, ends⟩ := terminated_of_sliceReads reads
  simp [goOn b (by simp)] at ends

/-- Copies of a continuation byte are continuation bytes. -/
theorem contBit_of_mem_replicate {b : Byte} (goesOn : contBit b = true) (k : Nat) :
    ∀ c ∈ List.replicate k b, contBit c = true :=
  fun _ inSlice => List.eq_of_mem_replicate inSlice ▸ goesOn

/-- A slice whose number up to its terminator has more than W bits has no value (R63). -/
theorem sliceDecode_of_overflow {T : VType} {front : List Byte} {b : Byte} (goOn : ∀ c ∈ front, contBit c = true)
    (overflow : 2 ^ T.bits ≤ Stated.groupSum (front ++ [b])) : sliceDecode T (front ++ [b]) = none := by
  rw [sliceDecode_eq_none_iff]
  rintro ⟨v, n, one, -, long, bits, fits, -⟩
  rw [List.length_append, List.length_singleton] at long
  rcases Nat.lt_or_eq_of_le long with early | rfl
  · have at_n : (front ++ [b])[n - 1]? = some front[n - 1] := by
      rw [List.getElem?_append_left (by omega), List.getElem?_eq_getElem]
    have goesOn := (bits (n - 1) _ at_n (by omega)).1 (goOn _ (List.getElem_mem _))
    omega
  · rw [List.take_of_length_le (by simp)] at fits
    omega

/-! ### The minimal encoding (R39, R42, R60, R61) -/

/-- A number has at most n binary digits exactly if it is below 2^n (00 section 4). -/
theorem bitlen_le_iff {u n : Nat} : bitlen u ≤ n ↔ u < 2 ^ n := by
  unfold bitlen
  split
  next zero => simp [zero]
  next nonzero => rw [Nat.succ_le_iff, Nat.log2_lt nonzero]

/-- Rounding the number of digits up to whole groups gives the least number of groups (R60). -/
theorem leastGroups_of_bitlen (u : Nat) : Stated.LeastGroups u (max 1 ((bitlen u + 6) / 7)) := by
  have least : ∀ k, u < 2 ^ (7 * k) ↔ bitlen u ≤ 7 * k := fun k => bitlen_le_iff.symm
  refine ⟨by omega, (least _).2 (by omega), ?_⟩
  rw [← Nat.not_lt, least]
  omega

/-- A least number of groups is at most any number of groups that suffices. -/
theorem leastGroups_le {u j k : Nat} (least : Stated.LeastGroups u k) (one : 1 ≤ j)
    (holds : u < 2 ^ (7 * j)) : k ≤ j := by
  obtain ⟨-, -, rfl | needed⟩ := least
  · exact one
  · have := (Nat.pow_lt_pow_iff_right (by decide)).1 (needed.trans_lt holds)
    omega

/-- There is only one least number of groups. -/
theorem leastGroups_unique {u j k : Nat} (hj : Stated.LeastGroups u j) (hk : Stated.LeastGroups u k) : j = k :=
  Nat.le_antisymm (leastGroups_le hj hk.1 hk.2.1) (leastGroups_le hk hj.1 hj.2.1)

/-- One group more for seven bits more. -/
theorem leastGroups_succ {u k : Nat} (rest : Stated.LeastGroups (u / 128) k) (more : u / 128 ≠ 0) :
    Stated.LeastGroups u (k + 1) := by
  obtain ⟨one, holds, needed⟩ := rest
  obtain ⟨k, rfl⟩ : ∃ j, k = j + 1 := ⟨k - 1, by omega⟩
  refine ⟨by omega, ?_, .inr ?_⟩
  · rw [Nat.mul_succ, Nat.pow_add]
    omega
  · rw [Nat.add_sub_cancel] at needed ⊢
    rw [Nat.mul_succ, Nat.pow_add]
    rcases needed with first | needed
    · obtain rfl : k = 0 := by omega
      omega
    · omega

/-- A number of 7 bits is encoded by its one group, without continuation bit (R39). -/
theorem isEncoding_singleton {u : Nat} {b : Byte} (small : u < 128) (group : b.toNat % 128 = u)
    (ends : b.getLsbD 7 = false) : Stated.IsEncoding u [b] := by
  refine ⟨⟨by simp, by simpa using small, .inl rfl⟩, ?_⟩
  intro i c at_i
  obtain ⟨rfl, rfl⟩ : i = 0 ∧ b = c := by simpa [List.getElem?_singleton] using at_i
  exact ⟨by simp [group, Nat.mod_eq_of_lt small], iff_of_false (Bool.eq_false_iff.1 ends) (by simp)⟩

/-- A longer number is encoded by its low group with the continuation bit, then the encoding of the rest (R39, R40). -/
theorem isEncoding_cons {u : Nat} {b : Byte} {s : List Byte} (rest : Stated.IsEncoding (u / 128) s)
    (more : u / 128 ≠ 0) (group : b.toNat % 128 = u % 128) (goesOn : b.getLsbD 7 = true) :
    Stated.IsEncoding u (b :: s) := by
  obtain ⟨least, bytes⟩ := rest
  refine ⟨leastGroups_succ least more, ?_⟩
  intro i c at_i
  cases i with
  | zero =>
    obtain rfl : b = c := by simpa using at_i
    exact ⟨by simpa using group, iff_of_true goesOn (Nat.succ_lt_succ least.1)⟩
  | succ i =>
    obtain ⟨digit, cont⟩ := bytes i c at_i
    refine ⟨?_, by simpa using cont⟩
    rw [digit, Nat.mul_succ, Nat.add_comm, Nat.pow_add, ← Nat.div_div_eq_div_mul]

/-- The encoder's loop writes the minimal encoding, if there are groups enough for the number (R61). -/
theorem isEncoding_encodeGroups (fuel u : Nat) (one : 1 ≤ fuel) (holds : u < 2 ^ (7 * fuel)) :
    Stated.IsEncoding u (encodeGroups fuel u) := by
  induction fuel generalizing u with
  | zero => omega
  | succ fuel ih =>
    have rest : u / 128 < 2 ^ (7 * fuel) := by
      rw [Nat.mul_succ, Nat.pow_add] at holds
      omega
    have group : (BitVec.ofNat 8 (u % 128)).toNat % 128 = u % 128 := by
      rw [BitVec.toNat_ofNat]
      omega
    unfold encodeGroups
    split
    next more =>
      have oneLeft : 1 ≤ fuel := Nat.pos_of_ne_zero fun spent => more (by simpa [spent] using rest)
      refine isEncoding_cons (ih (u / 128) oneLeft rest) more ?_ (by simp)
      rw [BitVec.or_comm]
      exact (payload_or_cont _).trans group
    next last =>
      have small : u < 128 := by omega
      rw [Nat.mod_eq_of_lt small] at group ⊢
      refine isEncoding_singleton small group ?_
      rw [← BitVec.testBit_toNat, BitVec.toNat_ofNat, Nat.mod_eq_of_lt (by omega)]
      exact Nat.testBit_lt_two_pow small

/-- encode_T is the minimal encoding of the unsigned form (R61). -/
theorem isEncoding_encodeVar {T : VType} {v : Int} (domain : inDomain T v = true) :
    Stated.IsEncoding (unsignedForm T v) (encodeVar T v) := by
  have tenGroups : T.bits ≤ 7 * 10 := (bits_le_val T).trans (by decide)
  exact isEncoding_encodeGroups 10 _ (by decide)
    ((unsignedForm_lt T v domain).trans_le (Nat.pow_le_pow_right (by decide) tenGroups))

/-- An encoding has as many bytes as required_space says (R60, R61). -/
theorem length_encodeVar {T : VType} {v : Int} (domain : inDomain T v = true) :
    (encodeVar T v).length = requiredSpace T v :=
  leastGroups_unique (isEncoding_encodeVar domain).1 (leastGroups_of_bitlen _)

/-! ### The laws of R64 -/

/-- The conditions of R63 hold of an encoding, for its value and its length. -/
theorem sliceReads_encodeVar {T : VType} {v : Int} (domain : inDomain T v = true) :
    Stated.SliceReads T (encodeVar T v) v (encodeVar T v).length := by
  obtain ⟨one, short⟩ := encodeVar_length_bounds T v domain
  have form := groupSum_encodeVar domain
  have fits := unsignedForm_lt T v domain
  refine ⟨one, short, le_refl _, fun i b at_i _ => ((isEncoding_encodeVar domain).2 i b at_i).2, ?_, ?_⟩
  · rwa [List.take_length, form]
  · rw [List.take_length, form, ← valueOf_eq_valueFrom fits, valueOf_unsignedForm domain]

/-- Settles O15: the conditions of R63 hold of the encoding, and its length is required_space. -/
theorem encodingRoundTrips : Obligations.EncodingRoundTrips := by
  unfold Obligations.EncodingRoundTrips
  intro T v domain
  exact sliceDecode_eq_some_iff.2 ⟨_, sliceReads_encodeVar domain, by rw [length_encodeVar domain]⟩

/-- Settles O16: the encoder's bounds, and its length. -/
theorem encodingSizeBound : Obligations.EncodingSizeBound := by
  unfold Obligations.EncodingSizeBound
  intro T v domain
  rw [← length_encodeVar domain]
  exact ⟨rfl, encodeVar_length_bounds T v domain⟩

/-- Settles O17: such a slice has no terminator at all. -/
theorem truncationRejected : Obligations.TruncationRejected := by
  unfold Obligations.TruncationRejected
  exact fun T s _ _ goOn => sliceDecode_of_all_cont goOn

/-- The unsigned form of a signed value is its closed zigzag form (R41, R58). -/
theorem unsignedForm_eq_zigzagOf {T : VType} {v : Int} (signed : T.signed = true) (domain : inDomain T v = true) :
    unsignedForm T v = Stated.zigzagOf v := by
  rw [unsignedForm, if_pos signed, toNat_zzEnc, toInt_ofInt_of_inDomain signed domain]

/-- A signed encoding is the unsigned encoding of the zigzag form (R41, R64). -/
theorem encodeVar_signed {w : Width} {v : Int} (domain : inDomain ⟨w, true⟩ v = true) :
    encodeVar ⟨w, true⟩ v = encodeVar ⟨w, false⟩ (Stated.zigzagOf v) := by
  rw [encodeVar, unsignedForm_eq_zigzagOf rfl domain]
  rfl

/-- Settles O19: both encode the same unsigned form. -/
theorem signSymmetry : Obligations.SignSymmetry := by
  unfold Obligations.SignSymmetry
  exact fun w v domain => encodeVar_signed domain

/-- Settles O20: by where the fold of Step_T ends; the empty slice ends in ACC, and 0x00 completes it. -/
theorem trailingBytesTolerated : Obligations.TrailingBytesTolerated := by
  unfold Obligations.TrailingBytesTolerated
  refine fun T => ⟨fun s t v n decoded => sliceDecode_append_of_some decoded t, fun s t k n failed => ⟨?_, ?_⟩, ?_⟩
  · simpa using sliceDecode_append_of_failed failed []
  · exact sliceDecode_append_of_failed failed t
  · have short := Nat.two_pos.trans_le (two_le_maxSize T)
    have completed := sliceDecode_of_terminated T [] 0x00 (by simp) rfl short (Nat.two_pow_pos _)
    exact ⟨[], [0x00], rfl, by rw [completed]; rfl⟩

/-! ### The greatest numbers (R64, R66) -/

/-- The last byte of the encoding of 2^W - 1: the bits of W that M(T) - 1 groups leave over. -/
def maxLast (T : VType) : Byte := BitVec.ofNat 8 (2 ^ (T.bits - 7 * (maxSize T - 1)) - 1)

/-- The encoding of 2^W - 1: every payload bit set, but for those past bit W - 1 (R66). -/
theorem encodeVar_maximum (T : VType) :
    encodeVar ⟨T.width, false⟩ (2 ^ T.bits - 1) = List.replicate (maxSize T - 1) 0xFF ++ [maxLast T] := by
  rcases T with ⟨_ | _ | _ | _, _ | _⟩ <;> decide

/-- One more in the last byte, or 0x7F there, is past W bits (R64, R66). -/
theorem maximum_overflows (T : VType) :
    2 ^ T.bits ≤ Stated.groupSum (List.replicate (maxSize T - 1) 0xFF ++ [maxLast T + 1]) ∧
      2 ^ T.bits ≤ Stated.groupSum (List.replicate (maxSize T - 1) 0xFF ++ [0x7F]) := by
  rcases T with ⟨_ | _ | _ | _, _ | _⟩ <;> decide

/-- The value of T whose unsigned form is 2^W - 1 (R41, R64). -/
def maxFormValue (T : VType) : Int := if T.signed then -(2 ^ (T.bits - 1)) else 2 ^ T.bits - 1

/-- It is a value of T, and its encoding is that of 2^W - 1. -/
theorem encodeVar_maxFormValue (T : VType) : inDomain T (maxFormValue T) = true ∧
    encodeVar T (maxFormValue T) = encodeVar ⟨T.width, false⟩ (2 ^ T.bits - 1) := by
  rcases T with ⟨_ | _ | _ | _, _ | _⟩ <;> decide

/-- Settles O18: the maximum by the round trip, the other two by the overflow rule. -/
theorem overflowRejected : Obligations.OverflowRejected := by
  unfold Obligations.OverflowRejected
  intro T
  have goOn := contBit_of_mem_replicate (b := 0xFF) rfl (maxSize T - 1)
  obtain ⟨domain, encoding⟩ := encodeVar_maxFormValue T
  obtain ⟨plusOne, allSet⟩ := maximum_overflows T
  have full : (List.replicate (maxSize T - 1) (0xFF : Byte)).length + 1 = maxSize T := by
    have := two_le_maxSize T
    rw [List.length_replicate]
    omega
  have count : requiredSpace T (maxFormValue T) = maxSize T := by
    rw [← length_encodeVar domain, encoding, encodeVar_maximum, List.length_append, List.length_singleton, full]
  refine ⟨_, maxLast T, encodeVar_maximum T, full, ?_, sliceDecode_of_overflow goOn plusOne,
    sliceDecode_of_overflow goOn allSet⟩
  rw [← encodeVar_maximum, ← encoding, encodingRoundTrips T _ domain, count]
  rfl

/-- Settles O21: the rows of single values by evaluation, the rows of continuation bytes because no terminator comes. -/
theorem edgeCases : Obligations.EdgeCases := by
  unfold Obligations.EdgeCases
  refine ⟨?_, by decide, by decide, by decide, by decide, by decide, by decide, by decide, by decide, ?_, ?_⟩
  · rintro (_ | _ | _ | _) (_ | _) <;> decide
  · intro T s b _ goesOn
    refine sliceDecode_of_all_cont fun c inSlice => ?_
    rcases List.mem_append.1 inSlice with inFront | isLast
    · obtain ⟨b', -, rfl⟩ := List.mem_map.1 inFront
      exact contBit_or_cont b'
    · rwa [List.mem_singleton.1 isLast]
  · intro T L _ _
    exact ⟨sliceDecode_of_all_cont (contBit_of_mem_replicate rfl L),
      sliceDecode_of_all_cont (contBit_of_mem_replicate rfl L)⟩

/-! ### The command words of the codec (R46, R49) -/

/-- A command word holds its operation and its type, and the reserved bit is clear (R44, R45). -/
theorem fields_wordOf {op : Nat} (below : op < 16) (T : VType) :
    (wordOf op T).getLsbD 3 = false ∧ cmdOp (wordOf op T) = op ∧ cmdType (wordOf op T) = T := by
  revert op
  rcases T with ⟨_ | _ | _ | _, _ | _⟩ <;> decide

/-- An operation that has every type field has its own word at each type (R46, R49). -/
theorem ownWord_of_typed (op : Nat) (command : VType → Request → Instr) (below : op < 16)
    (reads : ∀ r, r.cmd.getLsbD 3 = false → cmdOp r.cmd = op → decode r = .instr (command (cmdType r.cmd) r))
    (T : VType) : Stated.OwnWord (wordOf op T) (command T) := by
  intro r word
  obtain ⟨reserved, opField, typeField⟩ := fields_wordOf below T
  have own := reads r (word ▸ reserved) (word ▸ opField)
  rwa [word, typeField] at own

/-- The words of vmaxsz.T, whatever the other fields. -/
theorem ownWord_vmaxsz (T : VType) : Stated.OwnWord (wordOf 0x2 T) fun _ => Instr.vmaxsz T :=
  ownWord_of_typed 0x2 (fun T _ => .vmaxsz T) (by decide)
    (fun r reserved op => by simp only [decode, reserved, op, cond_false]) T

/-- The words of vrspace.T, whatever the other fields. -/
theorem ownWord_vrspace (T : VType) : Stated.OwnWord (wordOf 0x3 T) fun r => Instr.vrspace T r.val :=
  ownWord_of_typed 0x3 (fun T r => .vrspace T r.val) (by decide)
    (fun r reserved op => by simp only [decode, reserved, op, cond_false]) T

/-- The words of venc.T, whatever the other fields. -/
theorem ownWord_venc (T : VType) : Stated.OwnWord (wordOf 0x4 T) fun r => Instr.venc T r.val :=
  ownWord_of_typed 0x4 (fun T r => .venc T r.val) (by decide)
    (fun r reserved op => by simp only [decode, reserved, op, cond_false]) T

/-- The words of vdec.T, whatever the other fields. -/
theorem ownWord_vdec (T : VType) : Stated.OwnWord (wordOf 0x5 T) fun r => Instr.vdec T r.sb r.slen :=
  ownWord_of_typed 0x5 (fun T r => .vdec T r.sb r.slen) (by decide)
    (fun r reserved op => by simp only [decode, reserved, op, cond_false]) T

/-! ### The codec commands (R59 to R62) -/

/-- The unsigned form of the operand has the closed form (R46, R58). -/
theorem unsignedForm_operand (T : VType) (val : Val) : unsignedForm T (operand T val) = Stated.formOf T val := by
  unfold unsignedForm operand Stated.formOf
  split
  next => rw [BitVec.ofInt_toInt, toNat_zzEnc]; rfl
  next => rfl

/-- VMAXSZ.T's word, its BUSY answer and its result (R59). -/
theorem vmaxszAt (T : VType) : Stated.VmaxszAt (wordOf 0x2 T) (Instr.vmaxsz T) (maxSize T) :=
  ⟨ownWord_vmaxsz T, busyInFlight_of_unlessBusy (exec_vmaxsz T), answersOnly_of_unlessBusy_respond (exec_vmaxsz T)⟩

/-- VRSPACE.T's word, its BUSY answer and its result (R60). -/
theorem vrspaceAt (T : VType) : Stated.VrspaceAt (wordOf 0x3 T) T (Instr.vrspace T) := by
  refine ⟨ownWord_vrspace T, fun val => ⟨busyInFlight_of_unlessBusy (exec_vrspace T val), ?_⟩⟩
  have domain := operand_inDomain T val
  have length := length_encodeVar domain
  refine ⟨requiredSpace T (operand T val), ?_, length ▸ (encodeVar_length_bounds T _ domain).2, length.symm,
    answersOnly_of_unlessBusy_respond (exec_vrspace T val)⟩
  rw [← unsignedForm_operand]
  exact leastGroups_of_bitlen _

/-- VENC.T's word, its BUSY answer and its result (R61). -/
theorem vencAt (T : VType) : Stated.VencAt (wordOf 0x4 T) T (Instr.venc T) := by
  refine ⟨ownWord_venc T, fun val => ⟨busyInFlight_of_unlessBusy (exec_venc T val), ?_⟩⟩
  have domain := operand_inDomain T val
  refine ⟨encodeVar T (operand T val), ?_, (encodeVar_length_bounds T _ domain).2,
    answersOnly_of_unlessBusy_respond (exec_venc T val)⟩
  rw [← unsignedForm_operand]
  exact isEncoding_encodeVar domain

/-- A value of T on the value bus is its 64-bit form (R47). -/
theorem extendResult_eq_ofInt {T : VType} {v : Int} (domain : inDomain T v = true) :
    extendResult T v = BitVec.ofInt 64 v := by
  unfold extendResult
  split
  next signed => rw [BitVec.signExtend, toInt_ofInt_of_inDomain signed domain]
  next unsigned =>
    simp only [inDomain, if_neg unsigned, Bool.and_eq_true, decide_eq_true_eq] at domain
    obtain ⟨nonneg, below⟩ := domain
    lift v to Nat using nonneg
    rw [BitVec.ofInt_natCast, BitVec.ofInt_natCast,
      BitVec.setWidth_ofNat_of_le_of_lt (bits_le_val T) (by exact_mod_cast below)]

/-- The value that the conditions of R63 give is one of T. -/
theorem inDomain_of_sliceReads {T : VType} {s : List Byte} {v : Int} {n : Nat} (reads : Stated.SliceReads T s v n) :
    inDomain T v = true := by
  obtain ⟨-, -, -, -, fits, rfl⟩ := reads
  exact valueOf_eq_valueFrom fits ▸ valueOf_inDomain T _ fits

/-- VDEC.T's response where the conditions of R63 hold (R62). -/
theorem vdecResponse_of_sliceReads {T : VType} {sb : Lanes} {slen : BitVec 4} {v : Int} {n : Nat}
    (reads : Stated.SliceReads T (sliceOperand sb slen) v n) : vdecResponse T sb slen =
      { Response.plain .ok with rval := BitVec.ofInt 64 v, rlen := BitVec.ofNat 4 n } := by
  rw [vdecResponse, sliceDecode_eq_some_iff.2 ⟨n, reads, rfl⟩, ← extendResult_eq_ofInt (inDomain_of_sliceReads reads)]

/-- VDEC.T's response where they hold of no value and count (R62, R93). -/
theorem vdecResponse_of_none {T : VType} {sb : Lanes} {slen : BitVec 4}
    (nothing : ¬ ∃ v n, Stated.SliceReads T (sliceOperand sb slen) v n) : vdecResponse T sb slen = .plain .none := by
  rw [vdecResponse, sliceDecode_eq_none_iff.2 nothing]

/-- VDEC.T's word, its BUSY answer and its results (R62). -/
theorem vdecAt (T : VType) : Stated.VdecAt (wordOf 0x5 T) T (Instr.vdec T) := by
  refine ⟨ownWord_vdec T, fun sb slen => ⟨busyInFlight_of_unlessBusy (exec_vdec T sb slen), ?_, ?_⟩⟩
  · exact fun v n reads => vdecResponse_of_sliceReads reads ▸ answersOnly_of_unlessBusy_respond (exec_vdec T sb slen)
  · exact fun nothing => vdecResponse_of_none nothing ▸ answersOnly_of_unlessBusy_respond (exec_vdec T sb slen)

/-- Settles O11: R59 at each type. -/
theorem vmaxszAnswersMaxSize : Obligations.VmaxszAnswersMaxSize := by
  unfold Obligations.VmaxszAnswersMaxSize
  exact ⟨vmaxszAt .u8, vmaxszAt .u16, vmaxszAt .u32, vmaxszAt .u64,
    vmaxszAt .i8, vmaxszAt .i16, vmaxszAt .i32, vmaxszAt .i64⟩

/-- Settles O12: R60 at each type. -/
theorem vrspaceAnswersLeastGroups : Obligations.VrspaceAnswersLeastGroups := by
  unfold Obligations.VrspaceAnswersLeastGroups
  exact ⟨vrspaceAt .u8, vrspaceAt .u16, vrspaceAt .u32, vrspaceAt .u64,
    vrspaceAt .i8, vrspaceAt .i16, vrspaceAt .i32, vrspaceAt .i64⟩

/-- Settles O13: R61 at each type. -/
theorem vencAnswersEncoding : Obligations.VencAnswersEncoding := by
  unfold Obligations.VencAnswersEncoding
  exact ⟨vencAt .u8, vencAt .u16, vencAt .u32, vencAt .u64, vencAt .i8, vencAt .i16, vencAt .i32, vencAt .i64⟩

/-- Settles O14: R62 at each type. -/
theorem vdecAnswersSliceDecode : Obligations.VdecAnswersSliceDecode := by
  unfold Obligations.VdecAnswersSliceDecode
  exact ⟨vdecAt .u8, vdecAt .u16, vdecAt .u32, vdecAt .u64, vdecAt .i8, vdecAt .i16, vdecAt .i32, vdecAt .i64⟩

end Sys2Proof.Machine
end

section
/-! Proofs of the family 42_decoder_fsm: Step_T and Eof_T in plain arithmetic (R67, R68), the commands that drive DEC (R70 to
R72), who else changes DEC.state (R69, R73), and a slice-backed RDVAR against the slice decoder (R74). -/

namespace Sys2Proof.Machine

/-! ### Step_T and Eof_T (R67, R68) -/

/-- A payload p above the 7n bits of U takes a number of W bits past 2^W exactly by a bit at position W - 7n or above. -/
theorem overflow_iff_testBit {U n W : Nat} (p : Nat) (below : U < 2 ^ (7 * n)) (fits : U < 2 ^ W) :
    2 ^ W ≤ U + p * 2 ^ (7 * n) ↔ ∃ j, p.testBit j = true ∧ W ≤ 7 * n + j := by
  have bit (i : Nat) : (U + p * 2 ^ (7 * n)).testBit i = if i < 7 * n then U.testBit i else p.testBit (i - 7 * n) := by
    rw [Nat.add_comm, Nat.mul_comm]
    exact Nat.testBit_two_pow_mul_add p below i
  constructor
  · intro overflow
    obtain ⟨i, high, set⟩ := Nat.exists_ge_and_testBit_of_ge_two_pow overflow
    rw [bit] at set
    split_ifs at set with low
    · have clear := Nat.testBit_lt_two_pow (fits.trans_le (Nat.pow_le_pow_right Nat.two_pos high))
      simp [clear] at set
    · exact ⟨i - 7 * n, set, by omega⟩
  · rintro ⟨j, set, high⟩
    have set' : (U + p * 2 ^ (7 * n)).testBit (7 * n + j) = true := by simpa [bit] using set
    exact (Nat.pow_le_pow_right Nat.two_pos high).trans (Nat.ge_two_pow_of_testBit set')

/-- Step_T in ACC(acc, n) in plain arithmetic: overflow, then the terminator, then the M(T)-byte limit (R67). -/
theorem stepDec_acc (T : VType) (bits : Acc) (n : Count) (b : Byte) (short : n.toNat < maxSize T)
    (below : bits.toNat < 2 ^ (7 * n.toNat)) :
    stepDec T (.acc bits n) b =
      if 2 ^ T.bits ≤ bits.toNat + b.toNat % 128 * 2 ^ (7 * n.toNat) then .failed .invalidData (n + 1)
      else if contBit b = false then .done (valueOf T (bits.toNat + b.toNat % 128 * 2 ^ (7 * n.toNat))) (n + 1)
      else if n.toNat + 1 = maxSize T then .failed .invalidData (n + 1)
      else .acc (BitVec.ofNat 128 (bits.toNat + b.toNat % 128 * 2 ^ (7 * n.toNat))) (n + 1) := by
  have start : DecState.acc bits n = accAt bits.toNat n.toNat := by simp [accAt]
  have counted : BitVec.ofNat 4 (n.toNat + 1) = n + 1 := by simp [BitVec.ofNat_add]
  rw [start, stepDec_accAt T _ _ b short below, accAt, counted]

/-- Terminal states absorb every byte (R67, R73). -/
theorem stepDec_of_terminal (T : VType) {d : DecState} (b : Byte) (terminal : d.terminal = true) : stepDec T d b = d :=
  answerDec_of_terminal T d (.byte b) terminal

/-- Terminal states absorb end-of-input (R68, R73). -/
theorem eofDec_of_terminal {d : DecState} (terminal : d.terminal = true) : eofDec d = d := by
  cases d <;> simp_all [eofDec]

/-- End-of-input ends an ACC in UNEXPECTED_EOF with its count (R68). -/
theorem eofDec_of_not_terminal {d : DecState} (going : d.terminal = false) :
    eofDec d = .failed .unexpectedEof d.count := by
  obtain ⟨bits, n, rfl⟩ := d.eq_acc_of_not_terminal going
  rfl

/-- An I/O error ends an ACC in IO_ERROR with its count (R69). -/
theorem ioErrDec_of_not_terminal {d : DecState} (going : d.terminal = false) :
    ioErrDec d = .failed .ioError d.count := by
  obtain ⟨bits, n, rfl⟩ := d.eq_acc_of_not_terminal going
  rfl

/-- Settles O23: the branches of Step_T in their order, over the sum of accumulator and payload. -/
theorem stepFunction : Obligations.StepFunction := by
  unfold Obligations.StepFunction
  refine fun T b => ⟨fun bits n short below fits => ?_, fun _ _ => rfl, fun _ _ => rfl⟩
  have step := stepDec_acc T bits n b short below
  refine ⟨count_succ_toNat T n short, overflow_iff_testBit _ below fits, fun overflow => ?_, fun small ends => ?_,
    fun small goesOn limit => ?_, fun small goesOn shorter => ?_⟩
  · rw [step, if_pos overflow]
  · rw [step, if_neg (by omega), if_pos (show contBit b = false from ends), valueOf_eq_valueFrom small]
  · rw [step, if_neg (by omega), if_neg (by simp [contBit, goesOn]), if_pos limit]
  · refine ⟨_, ?_, by rw [step, if_neg (by omega), if_neg (by simp [contBit, goesOn]), if_neg (by omega)]⟩
    have wide : 2 ^ T.bits ≤ 2 ^ 128 := Nat.pow_le_pow_right Nat.two_pos ((bits_le_val T).trans (by decide))
    exact (BitVec.toNat_ofNat _ _).trans (Nat.mod_eq_of_lt (small.trans_le wide))

/-- Settles O24: Eof_T's own three rows. -/
theorem eofFunction : Obligations.EofFunction := by
  unfold Obligations.EofFunction
  exact ⟨fun _ _ => rfl, fun _ _ => rfl, fun _ _ => rfl⟩

/-! ### DINIT, DSTEP and DEOF (R70 to R72) -/

/-- dinit.T means runDinit at T (R70). -/
theorem exec_dinit (T : VType) (s : State) : exec (.dinit T) s = runDinit T s := by
  rcases T with ⟨_ | _ | _ | _, _ | _⟩ <;> rfl

/-- The words of dinit.T, whatever the other fields. -/
theorem ownWord_dinit (T : VType) : Stated.OwnWord (wordOf 0x6 T) fun _ => Instr.dinit T :=
  ownWord_of_typed 0x6 (fun T _ => .dinit T) (by decide)
    (fun r reserved op => by simp only [decode, reserved, op, cond_false]) T

/-- The word of dstep, whatever the other fields. -/
theorem ownWord_dstep : Stated.OwnWord 0x70 fun r => .dstep r.b := by
  intro r word
  unfold decode
  rw [word]
  rfl

/-- The word of deof, whatever the other fields. -/
theorem ownWord_deof : Stated.OwnWord 0x80 fun _ => .deof := by
  intro r word
  unfold decode
  rw [word]
  rfl

/-- What DSTEP and DEOF report of DEC, row by row (R71, R72). -/
theorem decReport_eq_reportOf (T : VType) (d : DecState) (cons : Bool) :
    decReport T d cons = Stated.reportOf T d cons := by
  cases d <;> rfl

/-- DINIT.T's word, its BUSY answer and its effect (R70). -/
theorem dinitAt (T : VType) : Stated.DinitAt (wordOf 0x6 T) T (Instr.dinit T) := by
  refine ⟨ownWord_dinit T, busyInFlight_of_unlessBusy (exec_dinit T), fun s idle => ?_⟩
  rw [exec_dinit, runDinit, s.unlessBusy_of_idle _ idle]
  exact congrArg _ (State.respond_of_idle _ _ idle)

/-- Settles O25: R70 at each type. -/
theorem dinitStartsDecode : Obligations.DinitStartsDecode := by
  unfold Obligations.DinitStartsDecode
  exact ⟨dinitAt .u8, dinitAt .u16, dinitAt .u32, dinitAt .u64, dinitAt .i8, dinitAt .i16, dinitAt .i32, dinitAt .i64⟩

/-- With ADP IDLE and no type set, DSTEP is NOT_INITIALISED (R71, R87). -/
theorem exec_dstep_of_unset {s : State} (b : Byte) (idle : s.adp = .idle) (unset : s.decType = none) :
    exec (.dstep b) s = .next { s with rspCh := s.rspCh ++ [Response.plain .notInitialised] } := by
  simp [exec, execDstep, State.unlessBusy, State.reject, State.respond, idle, unset]

/-- With ADP IDLE and type T, DSTEP steps DEC by Step_T and reports the new state (R71). -/
theorem exec_dstep_of_type {s : State} {T : VType} (b : Byte) (idle : s.adp = .idle) (type : s.decType = some T) :
    exec (.dstep b) s = .next { s with
      dec := stepDec T s.dec b
      rspCh := s.rspCh ++ [Stated.reportOf T (stepDec T s.dec b) (!s.dec.terminal)] } := by
  simp [exec, execDstep, State.unlessBusy, State.respond, decReport_eq_reportOf, idle, type]

/-- With ADP IDLE and no type set, DEOF is NOT_INITIALISED (R72, R87). -/
theorem exec_deof_of_unset {s : State} (idle : s.adp = .idle) (unset : s.decType = none) :
    exec .deof s = .next { s with rspCh := s.rspCh ++ [Response.plain .notInitialised] } := by
  simp [exec, execDeof, State.unlessBusy, State.reject, State.respond, idle, unset]

/-- With ADP IDLE and type T, DEOF steps DEC by Eof_T and reports the new state (R72). -/
theorem exec_deof_of_type {s : State} {T : VType} (idle : s.adp = .idle) (type : s.decType = some T) :
    exec .deof s = .next { s with
      dec := eofDec s.dec
      rspCh := s.rspCh ++ [Stated.reportOf T (eofDec s.dec) false] } := by
  simp [exec, execDeof, State.unlessBusy, State.respond, decReport_eq_reportOf, idle, type]

/-- Settles O26: DSTEP's word, its BUSY answer, and its effect with and without a type. -/
theorem dstepStepsDec : Obligations.DstepStepsDec := by
  unfold Obligations.DstepStepsDec
  exact ⟨ownWord_dstep, fun b => ⟨busyInFlight_of_unlessBusy fun _ => rfl, fun _ idle =>
    ⟨exec_dstep_of_unset b idle, fun _ type => exec_dstep_of_type b idle type⟩⟩⟩

/-- Settles O27: DEOF's word, its BUSY answer, and its effect with and without a type. -/
theorem deofEndsDec : Obligations.DeofEndsDec := by
  unfold Obligations.DeofEndsDec
  exact ⟨ownWord_deof, busyInFlight_of_unlessBusy fun _ => rfl, fun _ idle =>
    ⟨exec_deof_of_unset idle, fun _ type => exec_deof_of_type idle type⟩⟩

/-! ### Who changes DEC.state (R69, R73) -/

/-- A byte that changes DEC.state found it in ACC (R73). -/
theorem not_terminal_of_stepDec_ne {T : VType} {d : DecState} {b : Byte} (changed : stepDec T d b ≠ d) :
    d.terminal = false :=
  Bool.eq_false_iff.2 fun terminal => changed (stepDec_of_terminal T b terminal)

/-- End-of-input that changes DEC.state found it in ACC (R73). -/
theorem not_terminal_of_eofDec_ne {d : DecState} (changed : eofDec d ≠ d) : d.terminal = false :=
  Bool.eq_false_iff.2 fun terminal => changed (eofDec_of_terminal terminal)

/-- The commands that change DEC.state, with what they leave in it: the commands' rows of R69. An ABORT does so only in RD. -/
theorem exec_dec {i : Instr} {s t : State} (run : exec i s = .next t) (changed : t.dec ≠ s.dec) :
    (s.adp = .idle ∧ ∃ T, (i = .dinit T ∨ i = .rdvar T) ∧ t.dec = .acc 0 0 ∧ t.decType = some T) ∨
    (s.adp = .idle ∧ ∃ T b, s.decType = some T ∧ i = .dstep b ∧ t.dec = stepDec T s.dec b) ∨
    (s.adp = .idle ∧ i = .deof ∧ t.dec = eofDec s.dec) ∨
    ∃ T, s.adp = .rd T ∧ i = .abort ∧ t.dec = .failed .cancelled s.dec.count := by
  rcases exec_cases i s with ⟨r, e, -⟩ | ⟨idle, T, rfl, e⟩ | ⟨idle, T, b, rfl, type, e⟩ | ⟨idle, T, rfl, -, e⟩ |
    ⟨-, T, val, -, e⟩ | ⟨idle, T, rfl, e⟩ | ⟨T, inRead, rfl, e⟩ | ⟨T, offered, -, -, e⟩ <;>
    obtain rfl := Host.Outcome.next.inj (e.symm.trans run)
  · exact absurd rfl changed
  · exact .inl ⟨idle, T, .inl rfl, rfl, rfl⟩
  · exact .inr (.inl ⟨idle, T, b, type, rfl, rfl⟩)
  · exact .inr (.inr (.inl ⟨idle, rfl, rfl⟩))
  · exact absurd rfl changed
  · exact .inl ⟨idle, T, .inr rfl, rfl, rfl⟩
  · exact .inr (.inr (.inr ⟨T, inRead, rfl, rfl⟩))
  · exact absurd (s.withdrawWrite_dec offered) changed

/-- The core's moves that change DEC.state: each takes a command. Past the start of a decode, all of them find DEC in ACC; for
an ABORT in RD that is so because a terminal DEC has the read ended first (log entry 5). -/
theorem coreTurn_dec {s t : State} (move : coreTurn s = .next t) (changed : t.dec ≠ s.dec) :
    (s.adp = .idle ∧ ∃ T, (Stated.NextCommand s (.dinit T) ∨ Stated.NextCommand s (.rdvar T)) ∧
      t.dec = .acc 0 0 ∧ t.decType = some T) ∨
    (s.dec.terminal = false ∧
      ((s.adp = .idle ∧ ∃ T b, s.decType = some T ∧ Stated.NextCommand s (.dstep b) ∧ t.dec = stepDec T s.dec b) ∨
      (s.adp = .idle ∧ Stated.NextCommand s .deof ∧ t.dec = .failed .unexpectedEof s.dec.count) ∨
      ∃ T, s.adp = .rd T ∧ Stated.NextCommand s .abort ∧ t.dec = .failed .cancelled s.dec.count)) := by
  rcases coreTurn_cases move with due | ⟨-, -, rfl⟩ | ⟨r, rest, free, oldest, ⟨why, -, rfl⟩ | ⟨i, legal, run⟩⟩
  · rcases State.coreDue_cases due with ⟨T, -, -, rfl⟩ | ⟨T, offered, a, -, -, rfl⟩ <;> exact absurd rfl changed
  · exact absurd rfl changed
  · exact absurd rfl changed
  · have next : Stated.NextCommand s i := ⟨r, rest, oldest, legal⟩
    rcases exec_dec run changed with ⟨idle, T, rfl | rfl, start⟩ | ⟨idle, T, b, type, rfl, stepped⟩ |
      ⟨idle, rfl, ended⟩ | ⟨T, inRead, rfl, cancelled⟩
    · exact .inl ⟨idle, T, .inl next, start⟩
    · exact .inl ⟨idle, T, .inr next, start⟩
    · exact .inr ⟨not_terminal_of_stepDec_ne (stepped ▸ changed), .inl ⟨idle, T, b, type, next, stepped⟩⟩
    · have going : s.dec.terminal = false := not_terminal_of_eofDec_ne (ended ▸ changed)
      exact .inr ⟨going, .inr (.inl ⟨idle, next, ended.trans (eofDec_of_not_terminal going)⟩)⟩
    · have going := ((State.coreDue_eq_none_iff s).1 free).1 T inRead
      exact .inr ⟨going, .inr (.inr ⟨T, inRead, next, cancelled⟩)⟩

/-- An answer of the source that changes DEC.state finds it in ACC, and leaves what its row of R69 says. -/
theorem answerDec_changed {T : VType} {d : DecState} {a : SrcAnswer} (changed : answerDec T d a ≠ d) :
    d.terminal = false ∧
      ((∃ b, a = .byte b ∧ answerDec T d a = stepDec T d b) ∨
      (a = .eof ∧ answerDec T d a = .failed .unexpectedEof d.count) ∨
      ∃ e, a = .ioErr e ∧ answerDec T d a = .failed .ioError d.count) := by
  have going : d.terminal = false :=
    Bool.eq_false_iff.2 fun terminal => changed (answerDec_of_terminal T d a terminal)
  refine ⟨going, ?_⟩
  cases a with
  | byte b => exact .inl ⟨b, rfl, rfl⟩
  | eof => exact .inr (.inl ⟨rfl, eofDec_of_not_terminal going⟩)
  | ioErr e => exact .inr (.inr ⟨e, rfl, ioErrDec_of_not_terminal going⟩)

/-- Settles O30: of all the moves only reset, the core's and the taking of a source's answer can change DEC.state. -/
theorem decStateTable : Obligations.DecStateTable := by
  unfold Obligations.DecStateTable
  intro s t move changed
  rcases step_cases move with ⟨ag, -, core⟩ | ⟨ag, -, rfl⟩ | ⟨ag, -, rfl⟩ |
    ⟨_, draw, ag, turn, ⟨-, rfl⟩ | ⟨src, T, attached, rfl, inRead, waits, rfl⟩⟩ |
    ⟨_, draw, ag, -, ⟨-, rfl⟩ | ⟨data, T, offered, -, -, -, -, rfl⟩⟩ |
    ⟨ag, -, ⟨-, rfl⟩ | ⟨src, -, -, rfl⟩⟩ | ⟨src, ag, -, -, -, rfl⟩ | ⟨data, ag, -, -, rfl⟩ | ⟨ag, turn, rfl⟩
  · rcases coreTurn_dec core changed with start | ⟨going, stepped | ended | ⟨T, inRead, cancelled⟩⟩
    · exact .inr (.inl start)
    · exact .inr (.inr ⟨going, .inl stepped⟩)
    · exact .inr (.inr ⟨going, .inr (.inl ended)⟩)
    · exact .inr (.inr ⟨going, .inr (.inr ⟨T, inRead, .inr cancelled⟩)⟩)
  · exact absurd (issueTurn_dec _) changed
  · exact absurd (readTurn_dec _) changed
  · exact absurd rfl changed
  · obtain ⟨going, row⟩ := answerDec_changed changed
    exact .inr (.inr ⟨going, .inr (.inr ⟨T, inRead, .inl ⟨draw, ag, src, turn, attached, waits, row⟩⟩)⟩)
  · exact absurd rfl changed
  · exact absurd rfl changed
  · exact absurd rfl changed
  · exact absurd rfl changed
  · exact absurd rfl changed
  · exact absurd rfl changed
  · exact .inl ⟨⟨ag, turn⟩, rfl, rfl⟩

/-- The report of DSTEP and DEOF has status OK and passes on whether the byte was consumed (R71, R72). -/
theorem reportOf_status_rcons (T : VType) (d : DecState) (cons : Bool) :
    (Stated.reportOf T d cons).status = .ok ∧ (Stated.reportOf T d cons).rcons = cons := by
  cases d <;> exact ⟨rfl, rfl⟩

/-- Settles O28: Step_T and Eof_T absorb, so DSTEP changes nothing, and of the rows of R69 only the first two leave a terminal
state. -/
theorem terminalStatesAbsorb : Obligations.TerminalStatesAbsorb := by
  unfold Obligations.TerminalStatesAbsorb
  refine ⟨fun T d b terminal => ⟨stepDec_of_terminal T b terminal, eofDec_of_terminal terminal⟩, ?_, ?_⟩
  · intro s T b idle type terminal
    obtain ⟨ok, notConsumed⟩ := reportOf_status_rcons T s.dec false
    refine ⟨_, ok, notConsumed, ?_⟩
    rw [exec_dstep_of_type b idle type, stepDec_of_terminal T b terminal, terminal]
    rfl
  · intro s t move terminal changed
    rcases decStateTable s t move changed with ⟨reset, -⟩ | start | ⟨going, -⟩
    · exact .inl reset
    · exact .inr start
    · exact absurd terminal (Bool.eq_false_iff.1 going)

/-! ### The end of a decode over a slice (R63, R67) -/

/-- A byte that ends a decode gives DONE or FAILED(INVALID_DATA), with one more in the count (R67). -/
theorem stepDec_ends {T : VType} {d : DecState} {b : Byte} (going : d.terminal = false)
    (ends : (stepDec T d b).terminal = true) :
    (∃ v, stepDec T d b = .done v (d.count + 1)) ∨ stepDec T d b = .failed .invalidData (d.count + 1) := by
  obtain ⟨bits, n, rfl⟩ := d.eq_acc_of_not_terminal going
  simp only [stepDec] at ends ⊢
  split_ifs at ends ⊢
  · exact .inr rfl
  · exact .inl ⟨_, rfl⟩
  · exact .inr rfl
  · cases ends

/-- Step_T over a slice stays in ACC, or some byte ends it and it stays as that byte leaves it. -/
theorem foldl_stepDec_ends (T : VType) (s : List Byte) (d : DecState) (going : d.terminal = false)
    (ended : (s.foldl (stepDec T) d).terminal = true) :
    ∃ front b rest, s = front ++ b :: rest ∧ (front.foldl (stepDec T) d).terminal = false ∧
      s.foldl (stepDec T) d = stepDec T (front.foldl (stepDec T) d) b := by
  induction s generalizing d with
  | nil => simp [going] at ended
  | cons b s ih =>
    cases first : (stepDec T d b).terminal with
    | true => exact ⟨[], b, s, rfl, going, foldl_stepDec_terminal T s _ first⟩
    | false =>
      obtain ⟨front, c, rest, rfl, before, last⟩ := ih _ first ended
      exact ⟨b :: front, c, rest, rfl, before, last⟩

/-- As long as the machine is in ACC, DEC.count is how many bytes it has read, fewer than M(T) (R14, R16). -/
theorem count_of_foldl_acc {T : VType} {s : List Byte} {d : DecState} (reached : s.foldl (stepDec T) (.acc 0 0) = d)
    (going : d.terminal = false) : s.length < maxSize T ∧ d.count.toNat = s.length := by
  obtain ⟨bits, n, rfl⟩ := d.eq_acc_of_not_terminal going
  obtain ⟨-, short, sum⟩ := acc_of_foldl_stepDec reached
  have ten := maxSize_le_ten T
  refine ⟨short, ?_⟩
  rw [sum, accAt, DecState.count_acc, BitVec.toNat_ofNat]
  omega

/-- A slice that ends a decode has a byte that does, and DEC.count is its place, at most M(T) (R63, R67). -/
theorem exists_last_of_foldl_terminal {T : VType} {s : List Byte} {d : DecState}
    (reached : s.foldl (stepDec T) (.acc 0 0) = d) (ended : d.terminal = true) :
    ∃ front b rest before, s = front ++ b :: rest ∧ front.foldl (stepDec T) (.acc 0 0) = before ∧
      before.terminal = false ∧ stepDec T before b = d ∧ d.count.toNat = front.length + 1 ∧ front.length < maxSize T := by
  obtain ⟨front, b, rest, whole, going, last⟩ := foldl_stepDec_ends T s _ rfl (reached ▸ ended)
  rw [reached] at last
  obtain ⟨short, count⟩ := count_of_foldl_acc rfl going
  have count' : d.count = (front.foldl (stepDec T) (.acc 0 0)).count + 1 := by
    rcases stepDec_ends going (last ▸ ended) with ⟨v, done⟩ | failed
    · rw [last, done, DecState.count_done]
    · rw [last, failed, DecState.count_failed]
  refine ⟨front, b, rest, _, whole, rfl, going, last.symm, ?_, short⟩
  rw [count', count_succ_toNat T _ (count ▸ short), count]

/-- Step_T fails a slice with INVALID_DATA only (R67). -/
theorem kind_of_foldl_failed {T : VType} {s : List Byte} {k : FailKind} {n : Count}
    (failed : s.foldl (stepDec T) (.acc 0 0) = .failed k n) : k = .invalidData := by
  obtain ⟨front, b, rest, before, -, -, going, last, -⟩ := exists_last_of_foldl_terminal failed rfl
  rcases stepDec_ends going (by rw [last]; rfl) with ⟨v, done⟩ | invalid
  · cases last.symm.trans done
  · cases last.symm.trans invalid
    rfl

/-! ### A slice-backed RDVAR (R74, R79, R80) -/

/-- rdvar.T means runRdvar at T (R78). -/
theorem exec_rdvar (T : VType) (s : State) : exec (.rdvar T) s = runRdvar T s := by
  rcases T with ⟨_ | _ | _ | _, _ | _⟩ <;> rfl

/-- A slice-backed source with bytes left delivers the first of them and moves on by one (R26). -/
theorem Source.answer_slice_of_drop_cons {S : List Byte} {cur : Nat} {b : Byte} {rest : List Byte}
    (left : S.drop cur = b :: rest) (draw : SrcAnswer) :
    (Source.slice S cur).answer draw = (.byte b, .slice S (cur + 1)) := by
  have inside : cur < S.length := by
    by_contra outside
    simp [List.drop_eq_nil_of_le (Nat.le_of_not_lt outside)] at left
  obtain ⟨rfl, -⟩ := List.cons.inj ((List.drop_eq_getElem_cons inside).symm.trans left)
  exact Source.answer_slice_of_lt inside draw

/-- The state within a RDVAR.T on `s` after it has taken j bytes of a slice-backed source and still has DEC in the ACC `d`: the
next byte request is out (R79). -/
def duringRead (s : State) (T : VType) (S : List Byte) (cur j : Nat) (d : DecState) (ag : List Turn) : State :=
  { s with
    decType := some T, dec := d, adp := .rd T, io := none, byteReq := .waiting, src := some (.slice S (cur + j))
    srcSent := s.srcSent + j + 1, agenda := ag }

/-- RDVAR.T's start is the state within the read before its first byte (R78). -/
theorem exec_rdvar_of_idle {s : State} {T : VType} {S : List Byte} {cur : Nat} (idle : s.adp = .idle)
    (attached : s.src = some (.slice S cur)) :
    exec (.rdvar T) s = .next (duringRead s T S cur 0 (.acc 0 0) s.agenda) := by
  rw [exec_rdvar, runRdvar, s.unlessBusy_of_idle _ idle]
  simp only [duringRead, Nat.add_zero, ← attached]

/-- A run goes on from the state after its first step. -/
theorem runSteps_succ {s t : State} (k : Nat) (move : step s = .next t) : runSteps (k + 1) s = runSteps k t := by
  simp only [runSteps, move]

/-- On its move the core ends a read whose DEC is terminal, whatever waits on the request channel (R80, log entry 5). -/
theorem step_of_read_terminal {s : State} {T : VType} {ag : List Turn} (moves : s.CoreMoves ag) (inRead : s.adp = .rd T)
    (terminal : s.dec.terminal = true) :
    step s = .next (State.complete { s with agenda := ag } (readResponse T s.dec s.io)) := by
  rw [step_of_coreMoves s ag moves]
  simp only [coreTurn, State.coreDue, inRead, terminal, if_true]

section
variable (s : State) (T : VType) (S : List Byte) (cur : Nat) (draw : SrcAnswer)

/-- A byte that leaves DEC in ACC is one step of the read (R79, R107). -/
theorem step_duringRead_byte {j : Nat} {d : DecState} {b : Byte} {rest : List Byte} (ag : List Turn)
    (delivers : S.drop (cur + j) = b :: rest) (going : (stepDec T d b).terminal = false) :
    step (duringRead s T S cur j d (.source 0 draw :: ag)) = .next (duringRead s T S cur (j + 1) (stepDec T d b) ag) := by
  rw [step_of_source_awaited (T := T) rfl rfl rfl rfl, Source.answer_slice_of_drop_cons delivers]
  simp [Stated.afterAnswer, duringRead, answerDec, answerIo, going, Nat.add_assoc]

/-- An answer that makes DEC terminal, and the core's turn after it, end the read (R79, R80, R107). -/
theorem runSteps_duringRead_end {j m : Nat} {d : DecState} {a : SrcAnswer} (ag : List Turn)
    (answered : (Source.slice S (cur + j)).answer draw = (a, .slice S (cur + m))) (noPayload : answerIo a = none)
    (ends : (answerDec T d a).terminal = true) :
    runSteps 2 (duringRead s T S cur j d (.source 0 draw :: .core :: ag)) =
      some (Stated.afterRead s T S cur (j + 1) m (answerDec T d a) (readResponse T (answerDec T d a) none) ag) := by
  rw [runSteps_succ 1 (step_of_source_awaited (T := T) rfl rfl rfl rfl), answered, noPayload,
    runSteps_succ 0 (step_of_read_terminal (T := T) (.inr rfl) rfl ends)]
  simp [runSteps, Stated.afterAnswer, Stated.afterRead, duringRead, State.complete, ends, Nat.add_assoc]

/-- Bytes that leave DEC in ACC are one step of the read each (R79, R107). -/
theorem runSteps_duringRead {front rest : List Byte} {j : Nat} {d : DecState} (k : Nat) (ag : List Turn)
    (delivers : S.drop (cur + j) = front ++ rest) (going : (front.foldl (stepDec T) d).terminal = false) :
    runSteps (front.length + k) (duringRead s T S cur j d (List.replicate front.length (.source 0 draw) ++ ag)) =
      runSteps k (duringRead s T S cur (j + front.length) (front.foldl (stepDec T) d) ag) := by
  induction front generalizing j d with
  | nil => simp
  | cons b front ih =>
    have first : (stepDec T d b).terminal = false :=
      Bool.eq_false_iff.2 fun ended => by simp [foldl_stepDec_terminal T front _ ended, ended] at going
    have next : S.drop (cur + (j + 1)) = front ++ rest := by
      rw [← Nat.add_assoc, ← List.drop_drop, delivers]
      rfl
    rw [List.length_cons, Nat.add_right_comm, List.replicate_succ, List.cons_append,
      runSteps_succ _ (step_duringRead_byte s T S cur draw _ delivers first), ih next going, Nat.add_assoc j,
      Nat.add_comm 1, List.foldl_cons]

/-- After bytes that leave DEC in ACC, an answer that makes it terminal ends the read (R79, R80, R107). -/
theorem runSteps_read {front rest : List Byte} {m : Nat} {a : SrcAnswer} {d : DecState} (ag : List Turn)
    (delivers : S.drop cur = front ++ rest) (reached : front.foldl (stepDec T) (.acc 0 0) = d) (going : d.terminal = false)
    (answered : (Source.slice S (cur + front.length)).answer draw = (a, .slice S (cur + m))) (noPayload : answerIo a = none)
    (ends : (answerDec T d a).terminal = true) :
    runSteps (front.length + 1 + 1)
        (duringRead s T S cur 0 (.acc 0 0) (Stated.readTurns draw (front.length + 1) ++ ag)) =
      some (Stated.afterRead s T S cur (front.length + 1) m (answerDec T d a) (readResponse T (answerDec T d a) none)
        ag) := by
  subst reached
  have turns : Stated.readTurns draw (front.length + 1) ++ ag =
      List.replicate front.length (.source 0 draw) ++ .source 0 draw :: .core :: ag := by
    simp [Stated.readTurns, List.replicate_succ']
  rw [turns, Nat.add_assoc, runSteps_duringRead s T S cur draw (j := 0) 2 _ delivers going, Nat.zero_add]
  exact runSteps_duringRead_end s T S cur draw ag answered noPayload ends

/-- A read of bytes that end a decode takes one step for each byte up to the last of them, counted in DEC.count, and one to
end (R74, R107). -/
theorem runSteps_read_of_terminal {d : DecState} (reached : (S.drop cur).foldl (stepDec T) (.acc 0 0) = d)
    (ended : d.terminal = true) (ag : List Turn) :
    runSteps (d.count.toNat + 1) (duringRead s T S cur 0 (.acc 0 0) (Stated.readTurns draw d.count.toNat ++ ag)) =
      some (Stated.afterRead s T S cur d.count.toNat d.count.toNat d (readResponse T d none) ag) := by
  obtain ⟨front, b, rest, before, whole, reached', going, rfl, count, -⟩ := exists_last_of_foldl_terminal reached ended
  have left : S.drop (cur + front.length) = b :: rest := by rw [← List.drop_drop, whole, List.drop_left]
  rw [count]
  exact runSteps_read s T S cur draw (a := .byte b) ag whole reached' going (Source.answer_slice_of_drop_cons left draw) rfl
    ended

/-- A read of bytes that leave DEC in ACC takes one step for each of them, one for the Eof after them, and one to end (R74,
R107). -/
theorem runSteps_read_of_acc {d : DecState} (reached : (S.drop cur).foldl (stepDec T) (.acc 0 0) = d)
    (going : d.terminal = false) (ag : List Turn) :
    runSteps (d.count.toNat + 1 + 1)
        (duringRead s T S cur 0 (.acc 0 0) (Stated.readTurns draw (d.count.toNat + 1) ++ ag)) =
      some (Stated.afterRead s T S cur (d.count.toNat + 1) d.count.toNat (.failed .unexpectedEof d.count)
        { Response.plain .unexpectedEof with rlen := d.count } ag) := by
  obtain ⟨-, count⟩ := count_of_foldl_acc reached going
  have atEnd : S.length ≤ cur + (S.drop cur).length := by rw [List.length_drop]; omega
  have run := runSteps_read s T S cur draw (a := .eof) ag (List.append_nil _).symm reached going
    (Source.answer_slice_of_le atEnd draw) rfl (eofDec_terminal d)
  rw [answerDec, eofDec_of_not_terminal going, ← count] at run
  exact run

end

/-- Settles O36: Step_T over the bytes that are left ends in DONE, in FAILED(INVALID_DATA) or in ACC, and the read follows it, in
ACC with one more answer, the Eof. -/
theorem sliceBackedReadAgrees : Obligations.SliceBackedReadAgrees := by
  unfold Obligations.SliceBackedReadAgrees
  intro T S cur draw s idle attached
  refine ⟨_, exec_rdvar_of_idle idle attached, fun v n decoded => ?_, fun nothing => ?_⟩
  · exact runSteps_read_of_terminal s T S cur draw (sliceDecode_eq_some_iff_done.1 decoded) rfl
  · cases reached : (S.drop cur).foldl (stepDec T) (.acc 0 0) with
    | done v n => simp [sliceDecode_eq_some_iff_done.2 reached] at nothing
    | failed k n =>
      obtain rfl := kind_of_foldl_failed reached
      obtain ⟨front, -, -, -, -, -, -, -, count, short⟩ := exists_last_of_foldl_terminal reached rfl
      exact ⟨n.toNat, .invalidData, n, count.trans_le short, .inl rfl,
        runSteps_read_of_terminal s T S cur draw reached rfl⟩
    | acc bits n =>
      obtain ⟨short, count⟩ := count_of_foldl_acc reached rfl
      have run := runSteps_read_of_acc s T S cur draw reached rfl
      rw [DecState.count_acc] at count run
      exact ⟨n.toNat + 1, .unexpectedEof, n, count.trans_lt short, .inr rfl, run⟩

end Sys2Proof.Machine
end

section
/-! Proofs of the family 43_stream_adapters: how WRVAR and RDVAR start (R75, R78), take their answers (R75, R79) and end
(R75, R76, R80), what ABORT cancels (R81), and what the kind of the requester decides (R82). -/

namespace Sys2Proof.Machine

/-! ### The starts (R75, R78) -/

/-- The words of wrvar.T, whatever the other fields. -/
theorem ownWord_wrvar (T : VType) : Stated.OwnWord (wordOf 0x9 T) fun r => Instr.wrvar T r.val :=
  ownWord_of_typed 0x9 (fun T r => .wrvar T r.val) (by decide)
    (fun r reserved op => by simp only [decode, reserved, op, cond_false]) T

/-- The words of rdvar.T, whatever the other fields. -/
theorem ownWord_rdvar (T : VType) : Stated.OwnWord (wordOf 0xA T) fun _ => Instr.rdvar T :=
  ownWord_of_typed 0xA (fun T _ => .rdvar T) (by decide)
    (fun r reserved op => by simp only [decode, reserved, op, cond_false]) T

/-- WRVAR.T's word, its BUSY answer and its start (R75). -/
theorem wrvarAt (T : VType) : Stated.WrvarAt (wordOf 0x9 T) T (Instr.wrvar T) := by
  refine ⟨ownWord_wrvar T, fun val => ⟨busyInFlight_of_unlessBusy (exec_wrvar T val), ?_⟩⟩
  have domain := operand_inDomain T val
  refine ⟨encodeVar T (operand T val), ?_, (encodeVar_length_bounds T _ domain).2, fun s idle => ?_⟩
  · rw [← unsignedForm_operand]
    exact isEncoding_encodeVar domain
  · rw [exec_wrvar, runWrvar, s.unlessBusy_of_idle _ idle]

/-- RDVAR.T's word, its BUSY answer and its start (R78). -/
theorem rdvarAt (T : VType) : Stated.RdvarAt (wordOf 0xA T) T (Instr.rdvar T) := by
  refine ⟨ownWord_rdvar T, busyInFlight_of_unlessBusy (exec_rdvar T), fun s idle => ?_⟩
  rw [exec_rdvar, runRdvar, s.unlessBusy_of_idle _ idle]

/-- Settles O31: R75 at each type. -/
theorem wrvarStartsWrite : Obligations.WrvarStartsWrite := by
  unfold Obligations.WrvarStartsWrite
  exact ⟨wrvarAt .u8, wrvarAt .u16, wrvarAt .u32, wrvarAt .u64, wrvarAt .i8, wrvarAt .i16, wrvarAt .i32, wrvarAt .i64⟩

/-- Settles O33: R78 at each type. -/
theorem rdvarStartsRead : Obligations.RdvarStartsRead := by
  unfold Obligations.RdvarStartsRead
  exact ⟨rdvarAt .u8, rdvarAt .u16, rdvarAt .u32, rdvarAt .u64, rdvarAt .i8, rdvarAt .i16, rdvarAt .i32, rdvarAt .i64⟩

/-! ### The sink's answer and the end of a write (R75, R76) -/

/-- The turn of the attached sink that answers the outstanding write request is a step that keeps the answer (R75, R107). -/
theorem step_of_sink_awaited {s : State} {data offered : List Byte} {T : VType} {a : SnkAnswer} {ag : List Turn}
    (turn : s.agenda = .sink 0 a :: ag) (attached : s.snk = some data) (inWrite : s.adp = .wr T offered)
    (waits : s.writeReq = .waiting) :
    step s = .next { s with
      agenda := ag, snk := some (data ++ a.accepted offered), writeReq := .none, ans := some a } := by
  rw [step_of_agenda_cons s _ ag turn]
  exact sinkTurn_of_awaited (s := { s with agenda := ag }) a attached inWrite waits

/-- On its move the core ends a write whose sink has answered, whatever waits on the request channel (R75, log entry 5). -/
theorem step_of_write_answered {s : State} {T : VType} {offered : List Byte} {a : SnkAnswer} {ag : List Turn}
    (moves : s.CoreMoves ag) (inWrite : s.adp = .wr T offered) (answered : s.ans = some a) :
    step s = .next (Stated.afterWrite s (writeResponse offered a) ag) := by
  rw [step_of_coreMoves s ag moves]
  simp only [coreTurn, State.coreDue, inWrite, answered]
  rfl

/-- Settles O32: the sink's turn keeps its answer, and the core's turn ends the write by it. -/
theorem wrvarEndsWithSinkAnswer : Obligations.WrvarEndsWithSinkAnswer := by
  unfold Obligations.WrvarEndsWithSinkAnswer
  intro s T offered data a ag inWrite waits attached turns
  have answer := step_of_sink_awaited turns attached inWrite waits
  cases a with
  | ok =>
    exact ⟨answer, fun _ => step_of_write_answered (a := .ok) (.inr rfl) inWrite rfl, fun _ _ other => nomatch other⟩
  | ioErr e taken =>
    refine ⟨answer, fun other => (nomatch other), fun e' taken' same => ?_⟩
    cases same
    exact step_of_write_answered (a := .ioErr e taken) (offered := offered) (.inr rfl) inWrite rfl

/-! ### The source's answers and the end of a read (R79, R80) -/

/-- Settles O34: an oracle answers what is drawn, and the step takes it by its row of R69. -/
theorem rdvarTakesOracleAnswer : Obligations.RdvarTakesOracleAnswer := by
  unfold Obligations.RdvarTakesOracleAnswer
  intro s T got ag inRead going waits attached
  refine ⟨fun b turn => step_of_source_awaited turn attached inRead waits, fun turn => ?_, fun e turn => ?_⟩
  · rw [← eofDec_of_not_terminal going]
    exact step_of_source_awaited turn attached inRead waits
  · rw [← ioErrDec_of_not_terminal going]
    exact step_of_source_awaited turn attached inRead waits

/-- Settles O35: the core's move ends the read, and each row of R80 is the response to that DEC. -/
theorem rdvarEndsWhenTerminal : Obligations.RdvarEndsWhenTerminal := by
  unfold Obligations.RdvarEndsWhenTerminal
  intro s T ag inRead moves ended
  have ends {resp : Response} (terminal : s.dec.terminal = true) (row : readResponse T s.dec s.io = resp) :
      ended resp := row ▸ step_of_read_terminal moves inRead terminal
  refine ⟨fun v n dec => ?_, fun n dec => ?_, fun n dec => ?_, fun n dec => ?_⟩ <;>
    exact ends (by rw [dec]; rfl) (by rw [dec]; rfl)

/-! ### ABORT (R81) -/

/-- The word of abort, whatever the other fields. -/
theorem ownWord_abort : Stated.OwnWord 0xB0 fun _ => .abort := by
  intro r word
  unfold decode
  rw [word]
  rfl

/-- With nothing in flight ABORT answers OK (R81). -/
theorem exec_abort_of_idle {s : State} (idle : s.adp = .idle) :
    exec .abort s = .next { s with rspCh := s.rspCh ++ [Response.plain .ok] } := by
  rw [← s.respond_of_idle _ idle]
  simp only [exec, execAbort, idle]

/-- In RD ABORT cancels the read: CANCELLED with the count, the held responses, and its own OK (R81, R48). -/
theorem exec_abort_of_read {s : State} {T : VType} (inRead : s.adp = .rd T) :
    exec .abort s = .next { s with
      dec := .failed .cancelled s.dec.count, adp := .idle, io := none, ans := none, byteReq := .none, writeReq := .none
      rspCh := s.rspCh ++ { Response.plain .cancelled with rlen := s.dec.count } :: s.held ++ [Response.plain .ok]
      held := [] } := by
  simp only [exec, execAbort, inRead]
  rfl

/-- In WR with the request outstanding ABORT cancels the write: the sink keeps the part drawn, and CANCELLED, the held
responses and its own OK leave (R81, R48). -/
theorem exec_abort_of_write {s : State} {T : VType} {offered : List Byte} (inWrite : s.adp = .wr T offered)
    (waits : s.writeReq = .waiting) :
    exec .abort s = .next { s with
      adp := .idle, io := none, ans := none, byteReq := .none, writeReq := .none
      snk := s.snk.map (· ++ offered.take (Config.sinkPrefix s.draws))
      rspCh := s.rspCh ++ Response.plain .cancelled :: s.held ++ [Response.plain .ok], held := []
      draws := s.draws + 1 } := by
  simp only [exec, execAbort, inWrite, s.withdrawWrite_waiting _ waits]
  rfl

/-- A core in RD with DEC in ACC owes nothing. -/
theorem State.coreFree_of_read {s : State} {T : VType} (inRead : s.adp = .rd T) (going : s.dec.terminal = false) :
    s.CoreFree :=
  ⟨fun _ _ => going, fun _ _ inWrite => nomatch inRead.symm.trans inWrite⟩

/-- Settles O37: the byte is taken before the ABORT, an answered write ends before it, and ABORT itself goes by the form
of ADP. -/
theorem abortCancels : Obligations.AbortCancels := by
  unfold Obligations.AbortCancels
  refine ⟨ownWord_abort, fun s => ⟨?_, ?_, exec_abort_of_idle, fun _ inRead _ => exec_abort_of_read inRead, ?_⟩⟩
  · intro T b got ag r rest inRead inAcc waits attached turns oldest legal going
    obtain ⟨byteTaken, -, -⟩ := rdvarTakesOracleAnswer s T got (.core :: ag) inRead inAcc waits attached
    have abortTaken := stepRunsTakenCommand
      (Stated.afterAnswer s (.oracle (got ++ [b])) (stepDec T s.dec b) none (.core :: ag)) ag r rest .abort
      (.inr rfl) (State.coreFree_of_read inRead going) oldest legal
    rw [runSteps_succ 1 (byteTaken b turns), runSteps_succ 0 (abortTaken.trans (exec_abort_of_read inRead))]
    simp [runSteps, Stated.afterAnswer, going]
  · intro T offered ag inWrite moves _
    exact ⟨step_of_write_answered moves inWrite, fun _ _ => step_of_write_answered moves inWrite⟩
  · intro T offered inWrite waits
    exact ⟨_, List.take_prefix _ _, exec_abort_of_write inWrite waits⟩

/-! ### When the requester issues (R82) -/

/-- The decoder reads OP 0x9 as WRVAR, OP 0xA as RDVAR, and no other word so (R49). -/
theorem isAdapterCommand_iff (r : Request) : isAdapterCommand r = true ↔ Stated.IsAdapterCommand r := by
  simp only [isAdapterCommand, Bool.and_eq_true, Bool.not_eq_true', Bool.or_eq_true, beq_iff_eq]
  constructor
  · rintro ⟨reserved, op | op⟩
    · exact ⟨cmdType r.cmd, .inr ⟨r.val, by simp only [decode, reserved, op, cond_false]⟩⟩
    · exact ⟨cmdType r.cmd, .inl (by simp only [decode, reserved, op, cond_false])⟩
  · rintro ⟨T, legal | ⟨val, legal⟩⟩
    · rw [← cmd_of_decode legal, cmd_rdvar]
      obtain ⟨reserved, op, -⟩ := fields_wordOf (op := 0xA) (by decide) T
      exact ⟨reserved, .inr op⟩
    · rw [← cmd_of_decode legal, cmd_wrvar]
      obtain ⟨reserved, op, -⟩ := fields_wordOf (op := 0x9) (by decide) T
      exact ⟨reserved, .inl op⟩

/-- The requester waits if it is a blocking one and an adapter command is in flight or on the request channel (R82, log
entry 12). -/
theorem State.requesterWaits_iff (s : State) : s.requesterWaits = true ↔
    s.blocking = true ∧ (s.adp ≠ .idle ∨ ∃ q ∈ s.reqCh, Stated.IsAdapterCommand q) := by
  simp only [State.requesterWaits, Bool.and_eq_true, Bool.or_eq_true, Bool.not_eq_true', Adp.isIdle_false_iff,
    List.any_eq_true, isAdapterCommand_iff]

/-- With no command left the requester issues nothing. -/
theorem issueTurn_of_nil {s : State} (allIssued : s.program = []) : issueTurn s = s := by
  simp only [issueTurn, allIssued]

/-- A requester that must wait issues nothing (R82). -/
theorem issueTurn_of_waits {s : State} (waits : s.requesterWaits = true) : issueTurn s = s := by
  unfold issueTurn
  split
  · rfl
  · rw [if_pos waits]

/-- A requester that need not wait puts its next command at the end of the request channel (R7, R82). -/
theorem issueTurn_of_cons {s : State} {r : Request} {rest : List Request} (next : s.program = r :: rest)
    (ready : ¬ s.requesterWaits = true) : issueTurn s = { s with program := rest, reqCh := s.reqCh ++ [r] } := by
  simp only [issueTurn, next, if_neg ready]

/-- Settles O52: the turn issues the next command exactly if there is one and the requester need not wait. -/
theorem blockingRequesterWaits : Obligations.BlockingRequesterWaits := by
  unfold Obligations.BlockingRequesterWaits
  intro s ag turn
  have move {t : State} (issues : issueTurn { s with agenda := ag } = t) : step s = .next t :=
    (step_of_agenda_cons s .issue ag turn).trans (congrArg _ issues)
  have waits := State.requesterWaits_iff { s with agenda := ag }
  refine ⟨fun allIssued => move (issueTurn_of_nil allIssued), fun r rest next => ⟨fun blocking busy => ?_,
    fun _ idle noneWaits => ?_, fun suspending => ?_⟩⟩
  · exact move (issueTurn_of_waits (waits.2 ⟨blocking, busy⟩))
  · refine move (issueTurn_of_cons next fun h => ?_)
    rcases (waits.1 h).2 with inFlight | ⟨q, onChannel, adapter⟩
    · exact inFlight idle
    · exact noneWaits q onChannel adapter
  · exact move (issueTurn_of_cons next fun h => Bool.eq_false_iff.1 suspending (waits.1 h).1)

/-! ### The kind of the requester (R82) -/

/-- The same state with a requester of the given kind. -/
def State.setBlocking (s : State) (b : Bool) : State := { s with blocking := b }

@[simp] theorem State.setBlocking_decType (s : State) (b : Bool) : (s.setBlocking b).decType = s.decType := rfl
@[simp] theorem State.setBlocking_dec (s : State) (b : Bool) : (s.setBlocking b).dec = s.dec := rfl
@[simp] theorem State.setBlocking_adp (s : State) (b : Bool) : (s.setBlocking b).adp = s.adp := rfl
@[simp] theorem State.setBlocking_reqCh (s : State) (b : Bool) : (s.setBlocking b).reqCh = s.reqCh := rfl
@[simp] theorem State.setBlocking_rspCh (s : State) (b : Bool) : (s.setBlocking b).rspCh = s.rspCh := rfl
@[simp] theorem State.setBlocking_writeReq (s : State) (b : Bool) : (s.setBlocking b).writeReq = s.writeReq := rfl
@[simp] theorem State.setBlocking_ans (s : State) (b : Bool) : (s.setBlocking b).ans = s.ans := rfl
@[simp] theorem State.setBlocking_src (s : State) (b : Bool) : (s.setBlocking b).src = s.src := rfl
@[simp] theorem State.setBlocking_snk (s : State) (b : Bool) : (s.setBlocking b).snk = s.snk := rfl
@[simp] theorem State.setBlocking_srcSent (s : State) (b : Bool) : (s.setBlocking b).srcSent = s.srcSent := rfl
@[simp] theorem State.setBlocking_snkSent (s : State) (b : Bool) : (s.setBlocking b).snkSent = s.snkSent := rfl
@[simp] theorem State.setBlocking_agenda (s : State) (b : Bool) : (s.setBlocking b).agenda = s.agenda := rfl
@[simp] theorem State.setBlocking_readWaits (s : State) (b : Bool) : (s.setBlocking b).readWaits = s.readWaits := rfl
@[simp] theorem State.setBlocking_writeWaits (s : State) (b : Bool) : (s.setBlocking b).writeWaits = s.writeWaits := rfl

/-- A command that is turned away BUSY in flight sees the requester's kind only if its effect does. -/
theorem unlessBusy_setBlocking {s effect effect' : State} {b : Bool} (unseen : effect' = effect.setBlocking b) :
    (s.setBlocking b).unlessBusy effect' = Stated.withBlocking b (s.unlessBusy effect) := by
  unfold State.unlessBusy
  rw [unseen, State.setBlocking_adp]
  split <;> rfl

/-- Withdrawing a write does not see the requester's kind. -/
theorem withdrawWrite_setBlocking (s : State) (offered : List Byte) (b : Bool) :
    (s.setBlocking b).withdrawWrite offered = (s.withdrawWrite offered).setBlocking b := by
  unfold State.withdrawWrite
  rw [State.setBlocking_writeReq]
  cases s.writeReq <;> rfl

/-- ABORT does not see the requester's kind. -/
theorem execAbort_setBlocking (s : State) (b : Bool) :
    execAbort (s.setBlocking b) = Stated.withBlocking b (execAbort s) := by
  unfold execAbort
  rw [State.setBlocking_adp]
  cases s.adp with
  | idle => rfl
  | rd T => rfl
  | wr T offered =>
    simp only [withdrawWrite_setBlocking]
    rfl

/-- No command sees the requester's kind: but for ABORT, it is turned away BUSY or has an effect that does not read it. -/
theorem exec_setBlocking (i : Instr) (s : State) (b : Bool) :
    exec i (s.setBlocking b) = Stated.withBlocking b (exec i s) := by
  cases i
  case abort => exact execAbort_setBlocking s b
  case dstep byte =>
    refine unlessBusy_setBlocking ?_
    rw [State.setBlocking_decType]
    cases s.decType <;> rfl
  case deof =>
    refine unlessBusy_setBlocking ?_
    rw [State.setBlocking_decType]
    cases s.decType <;> rfl
  all_goals exact unlessBusy_setBlocking rfl

/-- The end that the core owes an operation in flight does not see the requester's kind. -/
theorem coreDue_setBlocking (s : State) (b : Bool) :
    (s.setBlocking b).coreDue = s.coreDue.map (·.setBlocking b) := by
  unfold State.coreDue
  rw [State.setBlocking_adp, State.setBlocking_dec, State.setBlocking_ans]
  cases s.adp with
  | idle => rfl
  | rd T => cases s.dec.terminal <;> rfl
  | wr T offered => cases s.ans <;> rfl

/-- The running of a request, legal or not, does not see the requester's kind. -/
theorem runCommand_setBlocking (r : Request) (s : State) (b : Bool) :
    runCommand r (s.setBlocking b) = Stated.withBlocking b (runCommand r s) := by
  unfold runCommand
  cases decode r with
  | instr i => exact exec_setBlocking i s b
  | illegal why => rfl

/-- The core's move does not see the requester's kind. -/
theorem coreTurn_setBlocking (s : State) (b : Bool) :
    coreTurn (s.setBlocking b) = Stated.withBlocking b (coreTurn s) := by
  unfold coreTurn
  rw [coreDue_setBlocking, State.setBlocking_reqCh]
  cases s.coreDue with
  | some t => rfl
  | none =>
    cases s.reqCh with
    | nil => rfl
    | cons r rest => exact runCommand_setBlocking r { s with reqCh := rest } b

/-- A source's answer and its taking do not see the requester's kind. -/
theorem sourceTurn_setBlocking (age : Nat) (draw : SrcAnswer) (s : State) (b : Bool) :
    sourceTurn age draw (s.setBlocking b) = Stated.withBlocking b (sourceTurn age draw s) := by
  unfold sourceTurn
  rw [State.setBlocking_src, State.setBlocking_readWaits, State.setBlocking_srcSent]
  split
  · rfl
  · split
    · rfl
    · split <;> rfl

/-- A sink's answer and its taking do not see the requester's kind. -/
theorem sinkTurn_setBlocking (age : Nat) (draw : SnkAnswer) (s : State) (b : Bool) :
    sinkTurn age draw (s.setBlocking b) = Stated.withBlocking b (sinkTurn age draw s) := by
  unfold sinkTurn
  rw [State.setBlocking_snk, State.setBlocking_writeWaits, State.setBlocking_snkSent]
  split
  · rfl
  · split
    · rfl
    · split <;> rfl

/-- Another reader's turn does not see the requester's kind. -/
theorem foreignReadTurn_setBlocking (s : State) (b : Bool) :
    foreignReadTurn (s.setBlocking b) = Stated.withBlocking b (foreignReadTurn s) := by
  unfold foreignReadTurn
  rw [State.setBlocking_src, State.setBlocking_adp]
  split
  · rfl
  · split <;> rfl

/-- Attaching a source does not see the requester's kind. -/
theorem attachSourceTurn_setBlocking (src : Source) (s : State) (b : Bool) :
    attachSourceTurn src (s.setBlocking b) = Stated.withBlocking b (attachSourceTurn src s) := by
  unfold attachSourceTurn
  rw [State.setBlocking_adp]
  split
  · split <;> rfl
  · rfl

/-- Attaching a sink does not see the requester's kind. -/
theorem attachSinkTurn_setBlocking (data : List Byte) (s : State) (b : Bool) :
    attachSinkTurn data (s.setBlocking b) = Stated.withBlocking b (attachSinkTurn data s) := by
  unfold attachSinkTurn
  rw [State.setBlocking_adp]
  split <;> rfl

/-- Reading a response does not see the requester's kind. -/
theorem readTurn_setBlocking (s : State) (b : Bool) : readTurn (s.setBlocking b) = (readTurn s).setBlocking b := by
  unfold readTurn
  rw [State.setBlocking_rspCh]
  split <;> rfl

/-- The reset input does not see the requester's kind. -/
theorem resetTurn_setBlocking (s : State) (b : Bool) : resetTurn (s.setBlocking b) = (resetTurn s).setBlocking b := by
  unfold resetTurn
  rw [State.setBlocking_adp, withdrawWrite_setBlocking]
  rfl

/-- No turn but the requester's issuing sees the requester's kind. -/
theorem takeTurn_setBlocking {t : Turn} (s : State) (b : Bool) (notIssue : t ≠ .issue) :
    takeTurn t (s.setBlocking b) = Stated.withBlocking b (takeTurn t s) := by
  cases t with
  | core => exact coreTurn_setBlocking s b
  | issue => exact absurd rfl notIssue
  | readResponse => exact congrArg _ (readTurn_setBlocking s b)
  | source age draw => exact sourceTurn_setBlocking age draw s b
  | sink age draw => exact sinkTurn_setBlocking age draw s b
  | foreignRead => exact foreignReadTurn_setBlocking s b
  | attachSource src => exact attachSourceTurn_setBlocking src s b
  | attachSink data => exact attachSinkTurn_setBlocking data s b
  | reset => exact congrArg _ (resetTurn_setBlocking s b)

/-- No step sees the requester's kind but one whose turn is the requester's issuing. -/
theorem step_setBlocking (s : State) (b : Bool) (notIssue : ∀ ag, s.agenda ≠ .issue :: ag) :
    step (s.setBlocking b) = Stated.withBlocking b (step s) := by
  unfold step nextMove
  rw [State.setBlocking_agenda]
  split
  next => exact coreTurn_setBlocking s b
  next t ag turns =>
    have other : t ≠ .issue := fun isIssue => notIssue ag (isIssue ▸ turns)
    exact takeTurn_setBlocking { s with agenda := ag } b other

/-- Settles O53: no command sees the kind, and no step but the issuing. -/
theorem requesterKindUnseen : Obligations.RequesterKindUnseen := by
  unfold Obligations.RequesterKindUnseen
  exact fun s b => ⟨fun i => exec_setBlocking i s b, step_setBlocking s b⟩

end Sys2Proof.Machine
end

section
/-! Proofs of the family 60_exceptions: BUSY in flight (R86), the codes of the statuses (R83, R11), that no command stops the
machine (R90), that only an OK response has a value (R94), and when a step faults or is refused (R97, R109). -/

namespace Sys2Proof.Machine

/-! ### BUSY in flight (R86), and the codes of statuses and tags (R83, R11) -/

/-- Settles O38: every command but ABORT checks for BUSY before its effect. -/
theorem busyWhileInFlight : Obligations.BusyWhileInFlight := by
  unfold Obligations.BusyWhileInFlight
  intro i notAbort
  cases i
  case abort => exact absurd rfl notAbort
  all_goals exact busyInFlight_of_unlessBusy fun _ => rfl

/-- Settles O39: the tables of R83 and R11 themselves. -/
theorem statusCodes : Obligations.StatusCodes := by
  unfold Obligations.StatusCodes
  decide

/-! ### The core never stops (R90) -/

/-- Settles O40: each effect that a command can have is a next state. -/
theorem everyCommandCompletes : Obligations.EveryCommandCompletes := by
  unfold Obligations.EveryCommandCompletes
  intro i s
  rcases exec_cases i s with ⟨r, e, -⟩ | ⟨-, T, -, e⟩ | ⟨-, T, b, -, -, e⟩ | ⟨-, T, -, -, e⟩ | ⟨-, T, val, -, e⟩ |
    ⟨-, T, -, e⟩ | ⟨T, -, -, e⟩ | ⟨T, offered, -, -, e⟩ <;> exact ⟨_, e⟩

/-- The core's move has a next state: what it owes, waiting, and every command, legal or not, has one. -/
theorem coreTurn_completes (s : State) : ∃ t, coreTurn s = .next t := by
  unfold coreTurn
  cases s.coreDue with
  | some t => exact ⟨t, rfl⟩
  | none =>
    cases s.reqCh with
    | nil => exact ⟨s, rfl⟩
    | cons r rest =>
      simp only [runCommand]
      cases decode r with
      | instr i => exact everyCommandCompletes i _
      | illegal why => exact ⟨_, rfl⟩

/-! ### Only an OK response has a value (R94) -/

/-- A response has a value only with the status OK (R94). -/
def Response.ValueOnlyWithOk (r : Response) : Prop := r.status ≠ .ok → r.rval = 0

/-- A response that sets nothing but its status has no value. -/
theorem Response.ValueOnlyWithOk.plain (st : Status) : (Response.plain st).ValueOnlyWithOk := fun _ => rfl

/-- What DSTEP, DEOF and DINIT report has the status OK (R70 to R72). -/
theorem decReport_valueOnlyWithOk (T : VType) (d : DecState) (cons : Bool) : (decReport T d cons).ValueOnlyWithOk :=
  fun notOk => absurd rfl notOk

/-- Of the rows of R80 only the one for DONE, an OK, has a value. -/
theorem readResponse_valueOnlyWithOk (T : VType) (d : DecState) (io : Option IoErr) :
    (readResponse T d io).ValueOnlyWithOk := by
  cases d with
  | acc bits n => exact fun _ => rfl
  | done v n => exact fun notOk => absurd rfl notOk
  | failed k n => cases k <;> exact fun _ => rfl

/-- WRVAR answers no value (R75, R76). -/
theorem writeResponse_valueOnlyWithOk (offered : List Byte) (a : SnkAnswer) :
    (writeResponse offered a).ValueOnlyWithOk := by
  cases a <;> exact fun _ => rfl

/-- The responses there are: on the channel, held and read. -/
def State.responses (s : State) : List Response := s.rspCh ++ s.held ++ s.received

/-- Every response that a move from `s` to `t` adds has a value only with the status OK. -/
def State.AddsValuesOnlyWithOk (s t : State) : Prop :=
  ∀ r ∈ t.responses, r ∈ s.responses ∨ r.ValueOnlyWithOk

/-- A response placed joins those there are (R48). -/
theorem State.mem_responses_respond {s : State} {r r' : Response} :
    r' ∈ (s.respond r).responses ↔ r' ∈ s.responses ∨ r' = r := by
  by_cases idle : s.adp = .idle
  · rw [s.respond_of_idle r idle]
    simp only [State.responses, List.mem_append, List.mem_singleton]
    tauto
  · rw [s.respond_of_busy r idle]
    simp only [State.responses, List.mem_append, List.mem_singleton]
    tauto

/-- The response that ends an operation joins those there are: the held ones only move to the channel (R48). -/
theorem State.mem_responses_complete {s : State} {r r' : Response} :
    r' ∈ (s.complete r).responses ↔ r' ∈ s.responses ∨ r' = r := by
  simp only [State.responses, State.complete_rspCh, State.complete_held, State.complete_received, List.mem_append,
    List.mem_cons, List.not_mem_nil]
  tauto

/-- A move after which there are only responses that there were before. -/
theorem State.AddsValuesOnlyWithOk.of_subset {s t : State} (old : t.responses ⊆ s.responses) :
    s.AddsValuesOnlyWithOk t := fun _ there => .inl (old there)

/-- A move that leaves the responses alone. -/
theorem State.AddsValuesOnlyWithOk.of_same {s t : State} (same : t.responses = s.responses) :
    s.AddsValuesOnlyWithOk t := .of_subset (same ▸ List.Subset.refl _)

/-- A response placed that has a value only with OK, after a move that adds none but such. -/
theorem State.AddsValuesOnlyWithOk.respond {s t : State} {r : Response} (before : s.AddsValuesOnlyWithOk t)
    (sound : r.ValueOnlyWithOk) : s.AddsValuesOnlyWithOk (t.respond r) := by
  intro r' there
  rcases State.mem_responses_respond.1 there with old | rfl
  · exact before r' old
  · exact .inr sound

/-- An operation ended with a response that has a value only with OK, after a move that adds none but such. -/
theorem State.AddsValuesOnlyWithOk.complete {s t : State} {r : Response} (before : s.AddsValuesOnlyWithOk t)
    (sound : r.ValueOnlyWithOk) : s.AddsValuesOnlyWithOk (t.complete r) := by
  intro r' there
  rcases State.mem_responses_complete.1 there with old | rfl
  · exact before r' old
  · exact .inr sound

/-- Every response that a command adds has a value only with OK. -/
theorem exec_addsValuesOnlyWithOk {i : Instr} {s t : State} (run : exec i s = .next t) : s.AddsValuesOnlyWithOk t := by
  rcases exec_cases i s with ⟨r, e, sound⟩ | ⟨-, T, -, e⟩ | ⟨-, T, b, -, -, e⟩ | ⟨-, T, -, -, e⟩ | ⟨-, T, val, -, e⟩ |
    ⟨-, T, -, e⟩ | ⟨T, -, -, e⟩ | ⟨T, offered, -, -, e⟩ <;>
    obtain rfl := Host.Outcome.next.inj (e.symm.trans run)
  · exact .respond (.of_same rfl) sound
  · exact .respond (.of_same rfl) (decReport_valueOnlyWithOk _ _ _)
  · exact .respond (.of_same rfl) (decReport_valueOnlyWithOk _ _ _)
  · exact .respond (.of_same rfl) (decReport_valueOnlyWithOk _ _ _)
  · exact .of_same rfl
  · exact .of_same rfl
  · exact .respond (.complete (.of_same rfl) fun _ => rfl) (.plain .ok)
  · exact .respond (.complete (.of_same (by simp [State.responses])) (.plain .cancelled)) (.plain .ok)

/-- Every response that the core's move adds has a value only with OK. -/
theorem coreTurn_addsValuesOnlyWithOk {s t : State} (move : coreTurn s = .next t) : s.AddsValuesOnlyWithOk t := by
  rcases coreTurn_cases move with due | ⟨-, -, rfl⟩ | ⟨r, rest, -, -, ⟨why, -, rfl⟩ | ⟨i, -, run⟩⟩
  · rcases State.coreDue_cases due with ⟨T, -, -, rfl⟩ | ⟨T, offered, a, -, -, rfl⟩
    · exact .complete (.of_same rfl) (readResponse_valueOnlyWithOk T s.dec s.io)
    · exact .complete (.of_same rfl) (writeResponse_valueOnlyWithOk offered a)
  · exact .of_same rfl
  · exact .respond (.of_same rfl) (.plain .illegalCommand)
  · have adds := exec_addsValuesOnlyWithOk run
    exact adds

/-- What the requester reads is on the channel before (R18). -/
theorem readTurn_responses_subset (s : State) : (readTurn s).responses ⊆ s.responses := by
  unfold readTurn
  split
  next => exact List.Subset.refl _
  next r rest channel =>
    intro r'
    simp only [State.responses, channel, List.mem_append, List.mem_cons, List.not_mem_nil]
    tauto

/-- Every response that a step adds has a value only with OK: the core alone makes responses. -/
theorem step_addsValuesOnlyWithOk {s t : State} (move : step s = .next t) : s.AddsValuesOnlyWithOk t := by
  rcases step_cases move with ⟨ag, -, core⟩ | ⟨ag, -, rfl⟩ | ⟨ag, -, rfl⟩ |
    ⟨_, draw, ag, -, ⟨-, rfl⟩ | ⟨src, T, -, -, -, -, rfl⟩⟩ |
    ⟨_, draw, ag, -, ⟨-, rfl⟩ | ⟨data, T, offered, -, -, -, -, rfl⟩⟩ |
    ⟨ag, -, ⟨-, rfl⟩ | ⟨src, -, -, rfl⟩⟩ | ⟨src, ag, -, -, -, rfl⟩ | ⟨data, ag, -, -, rfl⟩ | ⟨ag, -, rfl⟩
  case inl =>
    have adds := coreTurn_addsValuesOnlyWithOk core
    exact adds
  case inr.inl => exact .of_same (by simp [State.responses])
  case inr.inr.inl => exact .of_subset (readTurn_responses_subset { s with agenda := ag })
  case inr.inr.inr.inr.inr.inr.inr.inr => exact .of_subset (by simp [State.responses])
  all_goals exact .of_same rfl

/-- Settles O41: a response in `t` that was not in `s` is one that the step adds. -/
theorem noValueWithoutOk : Obligations.NoValueWithoutOk := by
  unfold Obligations.NoValueWithoutOk
  intro s t move resp there new
  exact (step_addsValuesOnlyWithOk move resp there).resolve_left new

/-! ### Faults and refusals (R97, R109) -/

/-- With no source attached a source's turn passes (R102). -/
theorem sourceTurn_of_none {age : Nat} {draw : SrcAnswer} {s : State} (absent : s.src = none) :
    sourceTurn age draw s = .next s := by
  simp only [sourceTurn, absent]

/-- An answer to a byte request that is not the outstanding one: a breach if the request was sent, else no move (R97). -/
theorem sourceTurn_of_not_awaited {age : Nat} {draw : SrcAnswer} {s : State} (attached : s.src ≠ none)
    (notAwaited : ¬ (age = 0 ∧ Stated.ByteAwaited s)) : sourceTurn age draw s =
      if age < s.srcSent then .fault .sourceAnswerNotRequested else .refused .answerNeverAsked := by
  unfold sourceTurn
  split
  next absent => exact absurd absent attached
  next =>
    split
    next T waits => exact absurd ⟨rfl, T, (s.readWaits_eq_some T).1 waits⟩ notAwaited
    next => rfl

/-- When a source's turn faults, and when it is refused (R97, R109). -/
theorem sourceTurn_stops (age : Nat) (draw : SrcAnswer) (s : State) :
    ((∃ f, sourceTurn age draw s = .fault f) ↔
      s.src ≠ none ∧ age < s.srcSent ∧ ¬ (age = 0 ∧ Stated.ByteAwaited s)) ∧
    ((∃ r, sourceTurn age draw s = .refused r) ↔
      s.src ≠ none ∧ s.srcSent ≤ age ∧ ¬ (age = 0 ∧ Stated.ByteAwaited s)) := by
  by_cases absent : s.src = none
  · simp [sourceTurn_of_none absent, absent]
  by_cases awaited : age = 0 ∧ Stated.ByteAwaited s
  · obtain ⟨src, attached⟩ := Option.ne_none_iff_exists'.1 absent
    obtain ⟨rfl, T, inRead, waits⟩ := awaited
    simp [sourceTurn_of_awaited draw attached inRead waits, Stated.ByteAwaited, inRead, waits]
  · rw [sourceTurn_of_not_awaited absent awaited]
    by_cases sent : age < s.srcSent
    · simp [absent, awaited, sent]
    · simp [absent, awaited, sent, Nat.le_of_not_lt sent]

/-- With no sink attached a sink's turn passes (R102, log entry 14). -/
theorem sinkTurn_of_none {age : Nat} {draw : SnkAnswer} {s : State} (absent : s.snk = none) :
    sinkTurn age draw s = .next s := by
  simp only [sinkTurn, absent]

/-- An answer to a write request that is not the outstanding one: a breach if the request was sent, else no move (R97). -/
theorem sinkTurn_of_not_awaited {age : Nat} {draw : SnkAnswer} {s : State} (attached : s.snk ≠ none)
    (notAwaited : ¬ (age = 0 ∧ Stated.WriteAwaited s)) : sinkTurn age draw s =
      if age < s.snkSent then .fault .sinkAnswerNotRequested else .refused .answerNeverAsked := by
  unfold sinkTurn
  split
  next absent => exact absurd absent attached
  next =>
    split
    next offered waits =>
      obtain ⟨⟨T, inWrite⟩, outstanding⟩ := (s.writeWaits_eq_some offered).1 waits
      exact absurd ⟨rfl, T, offered, inWrite, outstanding⟩ notAwaited
    next => rfl

/-- When a sink's turn faults, and when it is refused (R97, R109). -/
theorem sinkTurn_stops (age : Nat) (draw : SnkAnswer) (s : State) :
    ((∃ f, sinkTurn age draw s = .fault f) ↔
      s.snk ≠ none ∧ age < s.snkSent ∧ ¬ (age = 0 ∧ Stated.WriteAwaited s)) ∧
    ((∃ r, sinkTurn age draw s = .refused r) ↔
      s.snk ≠ none ∧ s.snkSent ≤ age ∧ ¬ (age = 0 ∧ Stated.WriteAwaited s)) := by
  by_cases absent : s.snk = none
  · simp [sinkTurn_of_none absent, absent]
  by_cases awaited : age = 0 ∧ Stated.WriteAwaited s
  · obtain ⟨data, attached⟩ := Option.ne_none_iff_exists'.1 absent
    obtain ⟨rfl, T, offered, inWrite, waits⟩ := awaited
    simp [sinkTurn_of_awaited draw attached inWrite waits, Stated.WriteAwaited, inWrite, waits]
  · rw [sinkTurn_of_not_awaited absent awaited]
    by_cases sent : age < s.snkSent
    · simp [absent, awaited, sent]
    · simp [absent, awaited, sent, Nat.le_of_not_lt sent]

/-- Another reader's turn faults exactly at an attached source while a RDVAR is in flight, and is never refused (R97). -/
theorem foreignReadTurn_stops (s : State) :
    ((∃ f, foreignReadTurn s = .fault f) ↔ s.src ≠ none ∧ ∃ T, s.adp = .rd T) ∧
      ¬ ∃ r, foreignReadTurn s = .refused r := by
  unfold foreignReadTurn
  cases s.src with
  | none => simp
  | some src => cases s.adp <;> simp

/-- Attaching a source is refused exactly in flight or with a cursor past the end, and never faults (R109, log entry 9). -/
theorem attachSourceTurn_stops (src : Source) (s : State) :
    (¬ ∃ f, attachSourceTurn src s = .fault f) ∧
      ((∃ r, attachSourceTurn src s = .refused r) ↔ s.adp ≠ .idle ∨ src.cursorOk = false) := by
  rw [← Adp.isIdle_false_iff]
  unfold attachSourceTurn
  cases s.adp.isIdle <;> cases src.cursorOk <;> simp

/-- Attaching a sink is refused exactly in flight, and never faults (R109, log entry 9). -/
theorem attachSinkTurn_stops (data : List Byte) (s : State) :
    (¬ ∃ f, attachSinkTurn data s = .fault f) ∧ ((∃ r, attachSinkTurn data s = .refused r) ↔ s.adp ≠ .idle) := by
  rw [← Adp.isIdle_false_iff]
  unfold attachSinkTurn
  cases s.adp.isIdle <;> simp

/-- Settles O48: the turn at the head of the agenda decides; the core's, the requester's and the reset's never stop. -/
theorem faultsOnlyForBreaches : Obligations.FaultsOnlyForBreaches := by
  unfold Obligations.FaultsOnlyForBreaches
  intro s
  cases turns : s.agenda with
  | nil =>
    obtain ⟨t, move⟩ := coreTurn_completes s
    simp [step_of_agenda_nil turns, move]
  | cons turn ag =>
    rw [step_of_agenda_cons s turn ag turns]
    cases turn with
    | core =>
      obtain ⟨t, move⟩ := coreTurn_completes { s with agenda := ag }
      simp [takeTurn, move]
    | issue => simp [takeTurn]
    | readResponse => simp [takeTurn]
    | source age draw => simpa [takeTurn, Stated.ByteAwaited] using sourceTurn_stops age draw { s with agenda := ag }
    | sink age draw => simpa [takeTurn, Stated.WriteAwaited] using sinkTurn_stops age draw { s with agenda := ag }
    | foreignRead => simpa [takeTurn] using foreignReadTurn_stops { s with agenda := ag }
    | attachSource src => simpa [takeTurn] using attachSourceTurn_stops src { s with agenda := ag }
    | attachSink data => simpa [takeTurn] using attachSinkTurn_stops data { s with agenda := ag }
    | reset => simp [takeTurn]

end Sys2Proof.Machine
end

section
/-! Proofs of the family 70_reset_and_hazards: the reset input (R100, R101), attaching a source or sink (R109), the launch
premises (R110), and the turns of absent agents and of another reader (R97, R102). -/

namespace Sys2Proof.Machine

/-! ### The reset input (R100, R101) -/

/-- Settles O57: the reset values stand by themselves, and the sink grows as a withdrawn write lets it. -/
theorem resetDropsEverything : Obligations.ResetDropsEverything := by
  unfold Obligations.ResetDropsEverything
  intro s ag turn
  obtain ⟨p, offered, grows⟩ := State.withdrawWrite_snk_grows { s with agenda := ag } s.adp.offered
  exact ⟨resetTurn { s with agenda := ag }, p, step_of_agenda_cons s .reset ag turn, offered, rfl, rfl, rfl, rfl, rfl, rfl,
    rfl, rfl, resetTurn_src _, grows, resetTurn_program _, resetTurn_received _, resetTurn_agenda _⟩

/-! ### Attaching a source or sink (R109) -/

/-- While ADP is IDLE the host attaches a source whose cursor is within its bytes, and nothing else changes (R109). -/
theorem step_of_attachSource {s : State} {src : Source} {ag : List Turn} (turn : s.agenda = .attachSource src :: ag)
    (idle : s.adp = .idle) (within : src.cursorOk = true) : step s = .next { s with agenda := ag, src := some src } := by
  simp only [step_of_agenda_cons s _ ag turn, takeTurn, attachSourceTurn, idle, Adp.isIdle_idle, within, if_true]

/-- A source whose cursor is past its end is not attached (R19, log entry 9). -/
theorem step_of_attachSource_past {s : State} {src : Source} {ag : List Turn} (turn : s.agenda = .attachSource src :: ag)
    (idle : s.adp = .idle) (past : src.cursorOk = false) : step s = .refused .attachBadCursor := by
  simp [step_of_agenda_cons s _ ag turn, takeTurn, attachSourceTurn, idle, past]

/-- No source is attached with an operation in flight (R109, log entry 9). -/
theorem step_of_attachSource_inFlight {s : State} {src : Source} {ag : List Turn}
    (turn : s.agenda = .attachSource src :: ag) (inFlight : s.adp ≠ .idle) : step s = .refused .attachInFlight := by
  simp [step_of_agenda_cons s _ ag turn, takeTurn, attachSourceTurn, (Adp.isIdle_false_iff _).2 inFlight]

/-- While ADP is IDLE the host attaches a sink, and nothing else changes (R109). -/
theorem step_of_attachSink {s : State} {data : List Byte} {ag : List Turn} (turn : s.agenda = .attachSink data :: ag)
    (idle : s.adp = .idle) : step s = .next { s with agenda := ag, snk := some data } := by
  simp only [step_of_agenda_cons s _ ag turn, takeTurn, attachSinkTurn, idle, Adp.isIdle_idle, if_true]

/-- No sink is attached with an operation in flight (R109, log entry 9). -/
theorem step_of_attachSink_inFlight {s : State} {data : List Byte} {ag : List Turn}
    (turn : s.agenda = .attachSink data :: ag) (inFlight : s.adp ≠ .idle) : step s = .refused .attachInFlight := by
  simp [step_of_agenda_cons s _ ag turn, takeTurn, attachSinkTurn, (Adp.isIdle_false_iff _).2 inFlight]

/-- Settles O55: ADP is checked first, then the cursor of a source. -/
theorem attachOnlyWhileIdle : Obligations.AttachOnlyWhileIdle := by
  unfold Obligations.AttachOnlyWhileIdle
  exact fun s ag =>
    ⟨fun data turn => ⟨step_of_attachSink turn, step_of_attachSink_inFlight turn⟩,
      fun src turn => ⟨step_of_attachSource turn, step_of_attachSource_past turn, step_of_attachSource_inFlight turn⟩⟩

/-! ### The launch premises (R110) -/

/-- What the host attaches and schedules is beside the launch premises 2 to 4 (R110). -/
theorem State.LaunchFrom.beside {s : State} {T : Option VType} {d : DecState} (launch : s.LaunchFrom T d)
    {src : Option Source} {snk : Option (List Byte)} {ag : List Turn} :
    State.LaunchFrom { s with src := src, snk := snk, agenda := ag } T d :=
  ⟨launch.idle, launch.emptyChannels, launch.decState⟩

/-- The state right after reset meets the launch premises 2 to 4 (R21, R110). -/
theorem State.reset_launch : State.reset.Launch := ⟨⟨rfl, rfl, rfl⟩, ⟨rfl, rfl, rfl⟩, ⟨rfl, rfl⟩⟩

/-- From an idle state the host attaches a source and a sink in two steps (R109). -/
theorem runSteps_attach (s : State) {src : Source} (data : List Byte) (ag : List Turn) (idle : s.adp = .idle)
    (within : src.cursorOk = true) :
    runSteps 2 { s with agenda := .attachSource src :: .attachSink data :: ag } =
      some { s with src := some src, snk := some data, agenda := ag } :=
  calc runSteps 2 { s with agenda := .attachSource src :: .attachSink data :: ag }
    _ = runSteps 1 { s with src := some src, agenda := .attachSink data :: ag } :=
        runSteps_succ 1 (step_of_attachSource rfl idle within)
    _ = some { s with src := some src, snk := some data, agenda := ag } := runSteps_succ 0 (step_of_attachSink rfl idle)

/-- Settles O58: attaching touches nothing that the launch premises of the reset state speak of. -/
theorem resetMeetsLaunchPremises : Obligations.ResetMeetsLaunchPremises := by
  unfold Obligations.ResetMeetsLaunchPremises
  exact ⟨State.reset_launch, fun src data within =>
    ⟨_, runSteps_attach State.reset data [] rfl within, State.reset_launch.beside, ⟨rfl, rfl⟩, rfl, rfl⟩⟩

/-! ### Absent agents and other readers (R97, R102) -/

/-- With no source attached another reader's turn passes (log entry 13). -/
theorem foreignReadTurn_of_none {s : State} (absent : s.src = none) : foreignReadTurn s = .next s := by
  simp only [foreignReadTurn, absent]

/-- With no RDVAR in flight another reader consumes one byte of the attached source (log entry 13). -/
theorem foreignReadTurn_of_attached {s : State} {src : Source} (attached : s.src = some src)
    (notInRead : ∀ T, s.adp ≠ .rd T) : foreignReadTurn s = .next { s with src := some src.consumed } := by
  unfold foreignReadTurn
  rw [attached]
  cases inFlight : s.adp with
  | idle => rfl
  | rd T => exact absurd inFlight (notInRead T)
  | wr T offered => rfl

/-- Before its end a slice-backed source moves on by one byte for another reader (R26). -/
theorem Source.consumed_slice_of_lt {S : List Byte} {cur : Nat} (inside : cur < S.length) :
    (Source.slice S cur).consumed = .slice S (cur + 1) := congrArg Prod.snd (Source.answer_slice_of_lt inside .eof)

/-- At its end a slice-backed source stays where it is for another reader (R26). -/
theorem Source.consumed_slice_of_le {S : List Byte} {cur : Nat} (atEnd : S.length ≤ cur) :
    (Source.slice S cur).consumed = .slice S cur := congrArg Prod.snd (Source.answer_slice_of_le atEnd .eof)

/-- With no RDVAR in flight another reader's turn is a step that consumes one byte of the source (log entry 13). -/
theorem step_of_foreignRead {s : State} {src : Source} {ag : List Turn} (turn : s.agenda = .foreignRead :: ag)
    (attached : s.src = some src) (notInRead : ∀ T, s.adp ≠ .rd T) :
    step s = .next { s with agenda := ag, src := some src.consumed } :=
  (step_of_agenda_cons s _ ag turn).trans (foreignReadTurn_of_attached (s := { s with agenda := ag }) attached notInRead)

/-- Another reader's turn spends only the turn at a source from which it consumes nothing (log entry 13). -/
theorem step_of_foreignRead_stays {s : State} {src : Source} {ag : List Turn} (turn : s.agenda = .foreignRead :: ag)
    (attached : s.src = some src) (notInRead : ∀ T, s.adp ≠ .rd T) (stays : src.consumed = src) :
    step s = .next { s with agenda := ag } := by
  rw [step_of_foreignRead turn attached notInRead, stays, ← attached]

/-- Settles O60: absent agents' turns pass, and another reader's turn moves the source as a byte consumed moves it. -/
theorem absentAgentsAndOtherReaders : Obligations.AbsentAgentsAndOtherReaders := by
  unfold Obligations.AbsentAgentsAndOtherReaders
  intro s ag
  refine ⟨fun age draw turn absent => ?_, fun age draw turn absent => ?_, fun turn absent => ?_,
    fun turn notInRead => ⟨fun got attached => ?_, fun S cur attached => ⟨fun inside => ?_, fun atEnd => ?_⟩⟩⟩
  · exact (step_of_agenda_cons s _ ag turn).trans (sourceTurn_of_none absent)
  · exact (step_of_agenda_cons s _ ag turn).trans (sinkTurn_of_none absent)
  · exact (step_of_agenda_cons s _ ag turn).trans (foreignReadTurn_of_none absent)
  · exact step_of_foreignRead_stays turn attached notInRead rfl
  · rw [step_of_foreignRead turn attached notInRead, Source.consumed_slice_of_lt inside]
  · exact step_of_foreignRead_stays turn attached notInRead (Source.consumed_slice_of_le atEnd)

end Sys2Proof.Machine
end
